-- ==== Sys2Proof/Word.lean ====
section
/-! DEFINITION. The word types of the SPS (00_scope.md R8). -/

namespace Sys2Proof

/-- An 8-bit field: a pin, a trim, a channel id, activeSlot. -/
abbrev Byte := BitVec 8

/-- A 16-bit register, an operand or a command word (20_memory.md R61). -/
abbrev Word := BitVec 16

/-- An 8-bit channel id, the channelIndex (00_scope.md R5, decision D11). -/
abbrev ChannelId := BitVec 8

end Sys2Proof
end

