-- ==== Sys2Proof/Syntax.lean ====
section
/-! DEFINITION. The instructions: one constructor for each row of spec/opcode_table.json. -/

namespace Sys2Proof

/-- The operations of the SPS: the ten command words, the two bus accesses of the host, and the five events
(30_encoding.md R81, R89). -/
inductive Instr where
  /-- NOP (41_registry.md R130). -/
  | nop
  /-- CREATE (R131). -/
  | create
  /-- ATTACH X ID: x is the explicit-calibration flag (R132, 30_encoding.md R82). -/
  | attach (x : Bool) (id : ChannelId)
  /-- DETACH ID (R133). -/
  | detach (id : ChannelId)
  /-- WRITE ID (R134). -/
  | write (id : ChannelId)
  /-- WRITE_US ID (R135). -/
  | writeUs (id : ChannelId)
  /-- READ ID (R136). -/
  | read (id : ChannelId)
  /-- READ_US ID (R137). -/
  | readUs (id : ChannelId)
  /-- ATTACHED ID (R138). -/
  | attached (id : ChannelId)
  /-- ILLEGAL: the word c, one that 30_encoding.md R85 does not accept (R139). -/
  | illegal (c : Word)
  /-- HOSTREAD: the host's load of n bytes at byte offset off (40_host_port.md R100). -/
  | hostRead (off n : Nat)
  /-- HOSTWRITE: the host's store of v, n bytes wide, at byte offset off (R101). -/
  | hostWrite (off n : Nat) (v : Word)
  /-- TICK of timer t's counter (42_scheduler.md R170). -/
  | tick (t : Nat)
  /-- COMPARE_MATCH of timer t, part of a tick (R171). -/
  | compareMatch (t : Nat)
  /-- SERVICE of timer t (R174). -/
  | service (t : Nat)
  /-- TIMER_INIT of timer t, part of ATTACH (R180). -/
  | timerInit (t : Nat)
  /-- TIMER_SHUTDOWN of timer t, part of DETACH (R181). -/
  | timerShutdown (t : Nat)
deriving DecidableEq, Repr

end Sys2Proof
end

