-- ==== Sys2Proof/Decode.lean ====
section
/-! DEFINITION. The decoder of command words (30_encoding.md R80 to R90), total on words and on bytes, and the encoder
written from the same table. -/

namespace Sys2Proof

/-- OP, bits 15:12 (R80). -/
def opField (c : Word) : BitVec 4 := c.extractLsb' 12 4

/-- RSV, bits 11:9 (R80, R84). -/
def rsvField (c : Word) : BitVec 3 := c.extractLsb' 9 3

/-- X, bit 8 (R80, R82). -/
def xField (c : Word) : Bool := c.getLsbD 8

/-- ID, bits 7:0 (R80, R83). -/
def idField (c : Word) : ChannelId := c.extractLsb' 0 8

/-- R85, `legal(c)`: OP at most 8; RSV zero; X only with ATTACH; no ID with NOP or CREATE. -/
abbrev legal (c : Word) : Prop :=
  (opField c).toNat ≤ 8 ∧ rsvField c = 0 ∧ (xField c = false ∨ opField c = 2) ∧
    ((opField c ≠ 0 ∧ opField c ≠ 1) ∨ idField c = 0)

/-- R85: a total function of the word. A legal word is the operation its OP names (R81), any other is ILLEGAL. -/
def decode (c : Word) : Instr :=
  if legal c then
    match (opField c).toNat with
    | 0 => .nop
    | 1 => .create
    | 2 => .attach (xField c) (idField c)
    | 3 => .detach (idField c)
    | 4 => .write (idField c)
    | 5 => .writeUs (idField c)
    | 6 => .read (idField c)
    | 7 => .readUs (idField c)
    | 8 => .attached (idField c)
    | _ => .illegal c
  else .illegal c

/-- Why bytes hold no command word. -/
inductive DecodeError where
  /-- Fewer than the two bytes of the one format there is (R80, R90). -/
  | truncated
deriving DecidableEq, Repr

/-- The decoder on bytes: a command word is two bytes, bits 7:0 first (20_memory.md R65). It answers the instruction
and the bytes after it. -/
def decodeBytes : List Byte → Except DecodeError (Instr × List Byte)
  | lo :: hi :: rest => .ok (decode (hi ++ lo), rest)
  | _ => .error .truncated

/-- A command word from its fields (R80), with RSV = 0. -/
def commandWord (op : BitVec 4) (x : Bool) (id : ChannelId) : Word :=
  op ++ (0#3) ++ (BitVec.ofBool x) ++ id

/-- The word of an instruction (R81); none for the bus accesses and the events, which have no encoding (R89). -/
def encode : Instr → Option Word
  | .nop => some (commandWord 0 false 0)
  | .create => some (commandWord 1 false 0)
  | .attach x id => some (commandWord 2 x id)
  | .detach id => some (commandWord 3 false id)
  | .write id => some (commandWord 4 false id)
  | .writeUs id => some (commandWord 5 false id)
  | .read id => some (commandWord 6 false id)
  | .readUs id => some (commandWord 7 false id)
  | .attached id => some (commandWord 8 false id)
  | .illegal c => some c
  | .hostRead _ _ => none
  | .hostWrite _ _ _ => none
  | .tick _ => none
  | .compareMatch _ => none
  | .service _ => none
  | .timerInit _ => none
  | .timerShutdown _ => none

/-- A word as its two bytes, little-endian (20_memory.md R65). -/
def wordBytes (c : Word) : List Byte := [c.extractLsb' 0 8, c.extractLsb' 8 8]

/-- What the decoder reads from an instruction of nbits bits w, numbered as spec/opcode_table.json numbers them: the
word is laid out in its byte order and given to the decoder. The one format has 16 bits, so a longer instruction
does not exist (R90). -/
def decodeTableWord (nbits w : Nat) : Option Instr :=
  if nbits = 0 ∨ 16 < nbits ∨ 2 ^ nbits ≤ w then none
  else
    match decodeBytes (wordBytes (BitVec.ofNat 16 w)) with
    | .ok (i, _) => some i
    | .error _ => none

end Sys2Proof
end

