-- ==== Sys2Proof/Config.lean ====
section
/-! DEFINITION. The parameters of the SPS (00_scope.md R5), the two reference configurations (R7), and the constants
without a value. Which configurations are well formed (R6) is in WellFormed.lean. -/

namespace Sys2Proof

/-- One configuration of the SPS: the OPEN parameters of R5 that a machine rule reads, the model's arguments
(92_eei_decisions.md, its opening; as natural numbers, log 14).
The parameters that R5 gives a value are no arguments: P3, P7, P8, P12 and P16 are the definitions below, and P14 and P15
are the widths 16 and 8 of the types of State.lean. -/
structure Config where
  /-- P1 NUM_TIMERS. -/
  numTimers : Nat
  /-- P2 CHANNELS_PER_TIMER. -/
  channelsPerTimer : Nat
  /-- P4 MIN_PULSE_WIDTH, us. -/
  minPulseWidth : Nat
  /-- P5 MAX_PULSE_WIDTH, us. -/
  maxPulseWidth : Nat
  /-- P6 DEFAULT_PULSE_WIDTH, us. -/
  defaultPulseWidth : Nat
  /-- P9 CYC_PER_US. -/
  cycPerUs : Nat
  /-- P10 PRESCALE. -/
  prescale : Nat
  /-- P11 SAFETY_MARGIN_TICKS. -/
  safetyMarginTicks : Nat
  /-- P13 NUM_PINS. -/
  numPins : Nat
deriving DecidableEq, Repr

namespace Config

/-- P3 MAX_CHANNELS = NUM_TIMERS × CHANNELS_PER_TIMER (decision D10). -/
def maxChannels (cfg : Config) : Nat := cfg.numTimers * cfg.channelsPerTimer

/-- P7 REFRESH_INTERVAL, us: 20000 in every configuration. -/
def refreshInterval (_cfg : Config) : Nat := 20000

/-- P8 TRIM_DURATION, applied in us (90_conflicts.md C2): 2 in every configuration. -/
def trimDuration (_cfg : Config) : Nat := 2

/-- P12 INIT_COMPARE = SAFETY_MARGIN_TICKS (decision D26). -/
def initCompare (cfg : Config) : Nat := cfg.safetyMarginTicks

/-- P16 READ_BIAS_US: 0 in every configuration (decision D24). -/
def readBiasUs (_cfg : Config) : Int := 0

/-- CFG-A, the reference configuration of R7. These values but NUM_TIMERS are the spec's [GK]. -/
def cfgA : Config where
  numTimers := 1
  channelsPerTimer := 12
  minPulseWidth := 544
  maxPulseWidth := 2400
  defaultPulseWidth := 1500
  cycPerUs := 16
  prescale := 8
  safetyMarginTicks := 4
  numPins := 20

/-- CFG-B is CFG-A with four timers, so 48 channels (R7). -/
def cfgB : Config := { cfgA with numTimers := 4 }

/-- P17 LAT_MAX: a premise of timed claims only, read by no machine rule (R5, decision D31; log 15). -/
opaque latMax : Nat

/-- P18 SPS_BASE: a property of the host platform, read by no rule of the SPS (R5, 20_memory.md R70; log 15). -/
opaque spsBase : Nat

/-- A quotient by zero, a FREE VALUE of the dividend. R9 and 41_registry.md R144: no rule divides by zero in a
well-formed state, so no run reaches it (log 12). -/
opaque divByZero : Int → Int

end Config

end Sys2Proof
end

