-- ==== Sys2Proof/Machine/Conversions.lean ====
section
/-! DEFINITION. The integer arithmetic of the registry (00_scope.md R9, 41_registry.md R121 to R128, R144). Values are
exact integers; nothing is reduced until a store. -/

namespace Sys2Proof.Machine

/-- R9, `a div b`: division truncating toward zero. R9 gives it for b ≠ 0 only; the quotient by 0 is a free value
(log 12). -/
def divT (a b : Int) : Int := if b = 0 then Config.divByZero a else Int.tdiv a b

/-- R121: `usToTicks(u) = (u * CYC_PER_US) div PRESCALE`. -/
def usToTicks (cfg : Config) (u : Int) : Int := divT (u * cfg.cycPerUs) cfg.prescale

/-- R122: `ticksToUs(k) = (k * PRESCALE) div CYC_PER_US`. -/
def ticksToUs (cfg : Config) (k : Int) : Int := divT (k * cfg.prescale) cfg.cycPerUs

/-- R5, `TICKS_PER_FRAME = usToTicks(REFRESH_INTERVAL)`. -/
def ticksPerFrame (cfg : Config) : Int := usToTicks cfg cfg.refreshInterval

/-- R123: `minTrim = (MIN_PULSE_WIDTH - minUs)/4`. -/
def minTrimOf (cfg : Config) (minUs : Int) : Int := divT (cfg.minPulseWidth - minUs) 4

/-- R123: `maxTrim = (MAX_PULSE_WIDTH - maxUs)/4`. -/
def maxTrimOf (cfg : Config) (maxUs : Int) : Int := divT (cfg.maxPulseWidth - maxUs) 4

/-- R124: the low end of the envelope, in us, for a trim of 4 us units. -/
def envelopeLow (cfg : Config) (mt : Int) : Int := cfg.minPulseWidth - 4 * mt

/-- R124: the high end of the envelope. -/
def envelopeHigh (cfg : Config) (xt : Int) : Int := cfg.maxPulseWidth - 4 * xt

/-- R125, `calOK(mt, xt)`: the trims fit 8 signed bits, the envelope is not empty, and every width in it fits the
fields it is stored into. -/
abbrev calOK (cfg : Config) (mt xt : Int) : Prop :=
  (-128 ≤ mt ∧ mt ≤ 127 ∧ -128 ≤ xt ∧ xt ≤ 127) ∧
  envelopeLow cfg mt < envelopeHigh cfg xt ∧
  0 ≤ envelopeLow cfg mt - cfg.trimDuration ∧
  usToTicks cfg (envelopeHigh cfg xt - cfg.trimDuration) ≤ 0xFFFF

/-- R126, clampUs, for an envelope [lo, hi]. -/
def clampTo (lo hi v : Int) : Int := min (max v lo) hi

/-- R127, degToUs, for an envelope [lo, hi]: degrees clamped to [0, 180] and mapped linearly. -/
def degToUsIn (lo hi d : Int) : Int := lo + divT (min (max d 0) 180 * (hi - lo)) 180

/-- R128, usToDeg, for an envelope [lo, hi]: the map inverted, truncated, not clamped. -/
def usToDegIn (cfg : Config) (lo hi u : Int) : Int := divT ((u + cfg.readBiasUs - lo) * 180) (hi - lo)

end Sys2Proof.Machine
end

