-- ==== Sys2Proof/Machine/State.lean ====
section
/-! DEFINITION. The state of the SPS (10_state.md R20 to R44), the reset state, and the ways a step can stop. -/

namespace Sys2Proof.Machine

/-- One entry of the channel table (10_state.md R21 to R25). -/
structure Channel where
  /-- R22: the GPIO pin the channel drives. -/
  pin : Byte
  /-- R23: whether the channel drives its pin. -/
  isActive : Bool
  /-- R24: the pulse width, in ticks. -/
  pulseTicks : Word
  /-- R25: the calibration of the low end, signed, in units of 4 us. -/
  minTrim : Byte
  /-- R25: the calibration of the high end, signed, in units of 4 us. -/
  maxTrim : Byte
deriving DecidableEq, Repr

/-- R44: a channel's reset values. -/
def Channel.reset : Channel where
  pin := 0
  isActive := false
  pulseTicks := 0
  minTrim := 0
  maxTrim := 0

/-- The registers of one timer (10_state.md R28 to R34). -/
structure Timer where
  /-- R28, TCNT: the free-running counter. -/
  tcnt : Word
  /-- R29, OCR: the compare target. -/
  ocr : Word
  /-- R30, OCIE: the compare interrupt's enable. -/
  ocie : Bool
  /-- R31, OCF: a compare match is pending. -/
  ocf : Bool
  /-- R32, OVR: sticky overrun. -/
  ovr : Bool
  /-- R33, TRUN: the counter ticks. -/
  trun : Bool
  /-- R34, activeSlot, two's complement: -1 is REFRESH_WAIT, s in [0, CHANNELS_PER_TIMER) is DRIVING(s). -/
  activeSlot : Byte
deriving DecidableEq, Repr

/-- R44: a timer's reset values. -/
def Timer.reset : Timer where
  tcnt := 0
  ocr := 0
  ocie := false
  ocf := false
  ovr := false
  trun := false
  activeSlot := -1

/-- R42, cu: the command unit's position. -/
inductive CommandUnit where
  /-- No command is in progress; the host is not stalled. -/
  | idle
  /-- The word c is between its micro-steps k-1 and k. id is the command's local channel id, kept across the yield
  (60_exceptions.md R212, "its local values"; log 8). -/
  | busy (c : Word) (k : Nat) (id : ChannelId)
deriving DecidableEq, Repr

/-- The next step of some agent, an input of the machine: the spec fixes no order among the agents (40_host_port.md
R103, 42_scheduler.md R173, 70_reset_and_hazards.md R246), so the order is data (log 3). -/
inductive Move where
  /-- The host reads n bytes at offset off (40_host_port.md R100). -/
  | hostRead (off n : Nat)
  /-- The host writes v, n bytes wide, at offset off (R101). -/
  | hostWrite (off n : Nat) (v : Word)
  /-- The command unit takes its next micro-step (R103). -/
  | microStep
  /-- Timer t's counter ticks (42_scheduler.md R170). -/
  | tick (t : Nat)
  /-- Timer t's sequencer takes a service (R173). -/
  | service (t : Nat)
deriving DecidableEq, Repr

/-- The state of the SPS (R20), with the model's own fields cfg, pending and readData at the end. -/
structure State where
  /-- R21: the channel table, MAX_CHANNELS entries. -/
  ch : List Channel
  /-- R26: how many channels have been created. -/
  channelCount : Byte
  /-- R28 to R34: the timers, NUM_TIMERS of them. -/
  tm : List Timer
  /-- R35: MODE, one latch a pin, true is output. -/
  mode : List Bool
  /-- R36: LEVEL, one latch a pin, true is high. -/
  level : List Bool
  /-- R37: the global interrupt enable. -/
  gie : Bool
  /-- R38: sticky error and fault bits, and FIRST. -/
  status : Word
  /-- R39: the information of the first record. -/
  finfo : Word
  /-- R40: operand 0. -/
  arg0 : Word
  /-- R40: operand 1. -/
  arg1 : Word
  /-- R40: operand 2. -/
  arg2 : Word
  /-- R41: the last return value. -/
  result : Word
  /-- R42: the command unit's position. -/
  cu : CommandUnit
  /-- The model's own: the configuration, which no step changes (log 1). -/
  cfg : Config
  /-- The model's own: the agents' steps to come, oldest first (log 3). -/
  pending : List Move
  /-- The model's own: the data the last host read returned (40_host_port.md R100; log 7). -/
  readData : Word
deriving DecidableEq, Repr

/-- R44: the state right after reset, in any configuration. -/
def State.resetOf (cfg : Config) : State where
  ch := List.replicate cfg.maxChannels Channel.reset
  channelCount := 0
  tm := List.replicate cfg.numTimers Timer.reset
  mode := List.replicate cfg.numPins false
  level := List.replicate cfg.numPins false
  gie := false
  status := 0
  finfo := 0
  arg0 := 0
  arg1 := 0
  arg2 := 0
  result := 0
  cu := .idle
  cfg := cfg
  pending := []
  readData := 0

/-- The machine right after reset, in the reference configuration CFG-A (R7, R44; log 2). -/
def State.reset : State := State.resetOf Config.cfgA

/-- Where the machine stops. The SPS itself never does (60_exceptions.md R207: a fault of the spec is recorded and the
machine goes on); these are states that no run of it reaches. -/
inductive Fault where
  /-- Raised by SERVICE when activeSlot is outside [-1, CHANNELS_PER_TIMER): 10_state.md R34, no rule stores such a
  value. Safe (log 11). -/
  | activeSlotOutOfRange
  /-- Raised by a command when cu = busy(c, k) names a micro-step that the command c does not have (R42). Safe
  (log 10). -/
  | noSuchMicroStep
deriving DecidableEq, Repr

/-- Why an instruction has no meaning where it stands. -/
inductive Refusal where
  /-- Raised by exec for an instruction the model gives no meaning yet. Safe. -/
  | notModelled (mnemonic : String)
  /-- Raised by a command or a host access issued while the command unit is busy with another word: the host is
  stalled then and issues nothing (40_host_port.md R102). step never asks for it. Safe (log 9). -/
  | hostStalled
  /-- Raised by an event of a timer that the configuration does not have (00_scope.md R4). Safe (log 6). -/
  | noSuchTimer
  /-- Raised by step when the configuration is not well formed (00_scope.md R6: a model refuses it). Safe. -/
  | configNotWellFormed
  /-- Raised by the command dispatch for an instruction that is no command; no word decodes to one (30_encoding.md
  R89). Safe (log 16). -/
  | notACommand
deriving DecidableEq, Repr

end Sys2Proof.Machine
end

