-- ==== Sys2Proof/Machine/Flags.lean ====
section
/-! DEFINITION. Every flag computation of the SPS: the STATUS and FINFO record (60_exceptions.md R201, R207), the
conditions on OCF, OCIE, TRUN and GIE (42_scheduler.md R170 to R173), and the packed TSTAT (20_memory.md R62). -/

namespace Sys2Proof.Machine

/-- The five error and fault codes (60_exceptions.md R201). -/
inductive FaultCode where
  /-- An illegal command word (R202). -/
  | errCmd
  /-- An out-of-range calibration (R203). -/
  | fltCal
  /-- A pin number out of range (R204). -/
  | fltPin
  /-- An unsupported host access (R205). -/
  | fltBus
  /-- An overrun of a timer (R206). -/
  | fltOvr
deriving DecidableEq, Repr

/-- R201, the number of a code. -/
def FaultCode.number : FaultCode → Nat
  | .errCmd => 1
  | .fltCal => 2
  | .fltPin => 3
  | .fltBus => 4
  | .fltOvr => 5

/-- R207, `bitOf(c) = c - 1`. -/
def FaultCode.bitOf (code : FaultCode) : Nat := code.number - 1

/-- R38: FIRST, STATUS bits 11:8. -/
def statusFirst (status : Word) : BitVec 4 := status.extractLsb' 8 4

/-- R207: the code's STATUS bit is set, and FIRST takes the code when it is 0. -/
def recordStatus (code : FaultCode) (status : Word) : Word :=
  let marked := status ||| (BitVec.twoPow 16 code.bitOf)
  if statusFirst status = 0 then marked ||| (BitVec.ofNat 16 code.number <<< 8) else marked

/-- R207: FINFO takes trunc_16(info) with the first record and keeps it afterwards. -/
def recordInfo (info : Nat) (status finfo : Word) : Word :=
  if statusFirst status = 0 then BitVec.ofNat 16 info else finfo

/-- 42_scheduler.md R171: the tick whose new count equals OCR makes the match. -/
def matchesAt (tcnt ocr : Word) : Bool := tcnt == ocr

/-- 42_scheduler.md R172: the earlier match is pending and enabled, so a match now is an overrun. -/
def Timer.overrunDue (tm : Timer) : Bool := tm.ocf && tm.ocie

/-- 42_scheduler.md R173, 60_exceptions.md R209: OCF, OCIE and GIE enable a service. -/
def serviceEnabled (tm : Timer) (gie : Bool) : Bool := tm.ocf && tm.ocie && gie

/-- 20_memory.md R62, TSTAT: OCIE, OCF, OVR, TRUN in bits 0 to 3, zeros, and activeSlot in bits 15:8. -/
def Timer.tstat (tm : Timer) : Word :=
  tm.activeSlot ++ (0#4) ++ BitVec.ofBool tm.trun ++ BitVec.ofBool tm.ovr ++ BitVec.ofBool tm.ocf ++
    BitVec.ofBool tm.ocie

end Sys2Proof.Machine
end

