-- ==== Sys2Proof/Machine/Ops.lean ====
section
/-! DEFINITION. The operations every meaning is built from: access to the tables, the latches and the command unit,
the recording of a fault, and the entry of a service. -/

namespace Sys2Proof.Machine

namespace State

/-! ### The channel table -/

/-- Channel i of the table (10_state.md R21). An index outside the table reads as a reset channel (log 13). -/
def chan (s : State) (i : Nat) : Channel := s.ch.getD i Channel.reset

/-- Store c as channel i; an index outside the table stores nothing (log 13). -/
def setChan (s : State) (i : Nat) (c : Channel) : State := { s with ch := s.ch.set i c }

/-- 41_registry.md R120: `valid(id) = (id < channelCount)`. -/
abbrev valid (s : State) (id : ChannelId) : Prop := id.toNat < s.channelCount.toNat

/-- 10_state.md R27: `timerOf(i) = i div CHANNELS_PER_TIMER`. -/
def timerOf (s : State) (i : Nat) : Nat := i / s.cfg.channelsPerTimer

/-- 10_state.md R27: `slotOf(i) = i mod CHANNELS_PER_TIMER`. -/
def slotOf (s : State) (i : Nat) : Nat := i % s.cfg.channelsPerTimer

/-- 10_state.md R27: the channel in slot k of timer t. -/
def channelAt (s : State) (t k : Nat) : Nat := t * s.cfg.channelsPerTimer + k

/-- 41_registry.md R129: some channel of timer t is active. -/
def timerActive (s : State) (t : Nat) : Bool :=
  (List.range s.cfg.maxChannels).any fun j => s.timerOf j == t && (s.chan j).isActive

/-! ### The timers -/

/-- Timer t (10_state.md section 3). An index outside the configuration reads as a reset timer (log 13). -/
def timer (s : State) (t : Nat) : Timer := s.tm.getD t Timer.reset

/-- Store x as timer t; an index outside the configuration stores nothing (log 13). -/
def setTimer (s : State) (t : Nat) (x : Timer) : State := { s with tm := s.tm.set t x }

/-! ### The pins -/

/-- 10_state.md R35, `setPinMode(pin, output)`. -/
def setOutput (s : State) (p : Nat) : State := { s with mode := s.mode.set p true }

/-- 10_state.md R36, `setPinState(pin, high|low)`: the latch is set whatever MODE holds. -/
def setLevel (s : State) (p : Nat) (high : Bool) : State := { s with level := s.level.set p high }

/-- MODE of pin p; false for a pin the configuration does not have. -/
def modeOf (s : State) (p : Nat) : Bool := s.mode.getD p false

/-- LEVEL of pin p; false for a pin the configuration does not have. -/
def levelOf (s : State) (p : Nat) : Bool := s.level.getD p false

/-- 10_state.md R36, PIN_OUT(p): the level of an output pin, none for Z. -/
def pinOut (s : State) (p : Nat) : Option Bool := if s.modeOf p then some (s.levelOf p) else none

/-! ### The command unit -/

/-- A command ends (`done`): cu becomes idle and the host's stall ends (40_host_port.md R102). -/
def done (s : State) : State := { s with cu := .idle }

/-- `~~ yield ~~` before micro-step k of word c, with the command's local channel id (00_scope.md R11, R102). -/
def yieldAt (s : State) (c : Word) (k : Nat) (id : ChannelId) : State := { s with cu := .busy c k id }

/-- The local channel id of the command in progress (60_exceptions.md R212); 0 when there is none (log 8). -/
def localId (s : State) : ChannelId :=
  match s.cu with
  | .idle => 0
  | .busy _ _ id => id

/-- The micro-step that word c takes next: its first when the command unit is idle, micro-step k while
cu = busy(c, k), and none while another word is in progress (R42, R102). -/
def microStepOf (s : State) (c : Word) : Option Nat :=
  match s.cu with
  | .idle => some 1
  | .busy c' k _ => if c' = c then some k else none

/-- Store a command's return value (10_state.md R41). -/
def setResult (s : State) (v : Word) : State := { s with result := v }

/-- The data a host read returns (40_host_port.md R100). -/
def setReadData (s : State) (v : Word) : State := { s with readData := v }

/-! ### Faults and the service's entry -/

/-- 60_exceptions.md R207, `raise Fault(code, info)`: the record in STATUS and FINFO, and nothing else; no control is
transferred. -/
def raise (s : State) (code : FaultCode) (info : Nat) : State :=
  { s with status := recordStatus code s.status, finfo := recordInfo info s.status s.finfo }

/-- 60_exceptions.md R212, the entry of timer t's service, the SPS's trap entry: OCF is cleared, nothing is saved and
no mask changes. -/
def serviceEntry (s : State) (t : Nat) : State := s.setTimer t { s.timer t with ocf := false }

/-- 60_exceptions.md R214, the return of a service: it restores nothing, and the interrupted command goes on at the
position cu holds. -/
def serviceReturn (s : State) : State := s

end State

/-- Run the next micro-step of word c, whose micro-steps are `steps`, numbered from 1 (00_scope.md R11,
40_host_port.md R102, R103). -/
def runCommand (c : Word) (steps : List (State → State)) (s : State) : Host.Outcome State Fault Refusal :=
  match s.microStepOf c with
  | none => .refused .hostStalled
  | some 0 => .fault .noSuchMicroStep
  | some (k + 1) =>
    match steps[k]? with
    | some f => .next (f s)
    | none => .fault .noSuchMicroStep

/-- An access of the host, which issues none while it is stalled (40_host_port.md R102). -/
def whenIdle (s : State) (f : State → Host.Outcome State Fault Refusal) : Host.Outcome State Fault Refusal :=
  match s.cu with
  | .idle => f s
  | .busy _ _ _ => .refused .hostStalled

/-- A step of an agent of timer t, which only the timers of the configuration have (00_scope.md R4). -/
def forTimer (t : Nat) (s : State) (f : State → Host.Outcome State Fault Refusal) :
    Host.Outcome State Fault Refusal :=
  if t < s.cfg.numTimers then f s else .refused .noSuchTimer

end Sys2Proof.Machine
end

