-- ==== Sys2Proof/Machine/RegisterMap.lean ====
section
/-! DEFINITION. The host register map (20_memory.md R61 to R67): the value of every supported offset, and its bytes. -/

namespace Sys2Proof.Machine

/-- R62: register r of timer t's block; a timer the configuration does not have, and offset 6, are reserved. -/
def State.timerReg (s : State) (t r : Nat) : Word :=
  if t < s.cfg.numTimers then
    match r with
    | 0 => (s.timer t).tcnt
    | 2 => (s.timer t).ocr
    | 4 => (s.timer t).tstat
    | _ => 0
  else 0

/-- R63: register r of channel i's block; a channel the configuration does not have is reserved. -/
def State.channelReg (s : State) (i r : Nat) : Word :=
  if i < s.cfg.maxChannels then
    match r with
    | 0 => (s.chan i).pin.setWidth 16
    | 2 => (BitVec.ofBool (s.chan i).isActive).setWidth 16
    | 4 => (s.chan i).pulseTicks
    | 6 => (s.chan i).maxTrim ++ (s.chan i).minTrim
    | _ => 0
  else 0

/-- R64: word k of a GPIO window; bit j is the latch of pin 16*k + j, and 0 for a pin that does not exist. -/
def gpioWord (latches : List Bool) (k : Nat) : Word := BitVec.ofFnLE fun j : Fin 16 => latches.getD (16 * k + j) false

/-- R61: the value a supported read of offset off gives. CMD is write only and reads 0; every offset not in the table
is reserved and reads 0 (R67). -/
def State.regval (s : State) (off : Nat) : Word :=
  if off = 0x002 then s.arg0
  else if off = 0x004 then s.arg1
  else if off = 0x006 then s.arg2
  else if off = 0x008 then s.result
  else if off = 0x00A then s.status
  else if off = 0x00C then (BitVec.ofBool s.gie).setWidth 16
  else if off = 0x00E then s.channelCount.setWidth 16
  else if off = 0x010 then s.finfo
  else if 0x020 ≤ off ∧ off < 0x060 then s.timerReg ((off - 0x020) / 8) ((off - 0x020) % 8)
  else if 0x100 ≤ off ∧ off < 0x8F8 then s.channelReg ((off - 0x100) / 8) ((off - 0x100) % 8)
  else if 0x900 ≤ off ∧ off < 0x920 then gpioWord s.mode ((off - 0x900) / 2)
  else if 0x920 ≤ off ∧ off < 0x940 then gpioWord s.level ((off - 0x920) / 2)
  else 0

/-- R65: the byte at byte offset a of a register's image, little-endian. -/
def State.regByte (s : State) (a : Nat) : Byte :=
  if a % 2 = 0 then (s.regval a).extractLsb' 0 8 else (s.regval (a - 1)).extractLsb' 8 8

/-- R66: an access is supported when it is 2 bytes wide, at an even offset, at most 0xFFE. -/
abbrev supported (off n : Nat) : Prop := n = 2 ∧ off % 2 = 0 ∧ off ≤ 0xFFE

end Sys2Proof.Machine
end

