-- ==== Sys2Proof/Machine/Operands.lean ====
section
/-! DEFINITION. Every operand form (30_encoding.md R82, R86, R87) and the channel's own envelope (41_registry.md R124,
R126 to R128). -/

namespace Sys2Proof.Machine

/-- R86: ARG0 as a pin, `zext_16(ARG0)`. -/
def State.pinOperand (s : State) : Nat := s.arg0.toNat

/-- R86: ARG0 as a value, `sext_16(ARG0)`. -/
def State.valueOperand (s : State) : Int := s.arg0.toInt

/-- R82, R87: minUs is `sext_16(ARG1)` when X = 1, else MIN_PULSE_WIDTH. -/
def State.minUsOperand (s : State) (x : Bool) : Int := if x then s.arg1.toInt else s.cfg.minPulseWidth

/-- R82, R87: maxUs is `sext_16(ARG2)` when X = 1, else MAX_PULSE_WIDTH. -/
def State.maxUsOperand (s : State) (x : Bool) : Int := if x then s.arg2.toInt else s.cfg.maxPulseWidth

/-- 41_registry.md R124, effMin(i), with the trim read as signed. -/
def State.effMin (s : State) (i : Nat) : Int := envelopeLow s.cfg (s.chan i).minTrim.toInt

/-- 41_registry.md R124, effMax(i). -/
def State.effMax (s : State) (i : Nat) : Int := envelopeHigh s.cfg (s.chan i).maxTrim.toInt

/-- 41_registry.md R126, clampUs(i, v). -/
def State.clampUs (s : State) (i : Nat) (v : Int) : Int := clampTo (s.effMin i) (s.effMax i) v

/-- 41_registry.md R127, degToUs(i, d). -/
def State.degToUs (s : State) (i : Nat) (d : Int) : Int := degToUsIn (s.effMin i) (s.effMax i) d

/-- 41_registry.md R128, usToDeg(i, u). -/
def State.usToDeg (s : State) (i : Nat) (u : Int) : Int := usToDegIn s.cfg (s.effMin i) (s.effMax i) u

/-- 41_registry.md R136, R137: the channel's width in us with TRIM_DURATION added back. -/
def State.widthUs (s : State) (i : Nat) : Int :=
  ticksToUs s.cfg (s.chan i).pulseTicks.toNat + s.cfg.trimDuration

end Sys2Proof.Machine
end

