-- ==== Sys2Proof/Machine/Timer.lean ====
section
/-! DEFINITION. The counter agent (42_scheduler.md R170 to R172) and the timer's init and shutdown (R180, R181). -/

namespace Sys2Proof.Machine

/-- R171, R172, CompareMatch(t): an overrun sets OVR and records FLT_OVR; OCF is set whatever OCIE and GIE hold. -/
def State.compareMatch (s : State) (t : Nat) : State :=
  if (s.timer t).overrunDue then
    (s.setTimer t { s.timer t with ovr := true, ocf := true }).raise .fltOvr t
  else
    s.setTimer t { s.timer t with ocf := true }

/-- R170, Tick(t): while TRUN = 1 the count goes up by 1 modulo 2^16, and the new count may match. While TRUN = 0 the
counter has no step, and nothing changes. -/
def State.tick (s : State) (t : Nat) : State :=
  if (s.timer t).trun then
    let counted := s.setTimer t { s.timer t with tcnt := (s.timer t).tcnt + 1 }
    if matchesAt (counted.timer t).tcnt (counted.timer t).ocr then counted.compareMatch t else counted
  else s

/-- R180, timerInit(t). OVR is kept: it is sticky. -/
def State.timerInit (s : State) (t : Nat) : State :=
  s.setTimer t
    { s.timer t with
      trun := true
      tcnt := 0
      ocr := BitVec.ofNat 16 s.cfg.initCompare
      ocf := false
      activeSlot := -1
      ocie := true }

/-- R181, timerShutdown(t): OCIE is cleared and nothing else. -/
def State.timerShutdown (s : State) (t : Nat) : State := s.setTimer t { s.timer t with ocie := false }

/-- TICK. -/
def execTick (t : Nat) (s : State) : Host.Outcome State Fault Refusal := forTimer t s fun s => .next (s.tick t)

/-- COMPARE_MATCH, the part of a tick that makes it; no step of its own (log 17). -/
def execCompareMatch (t : Nat) (s : State) : Host.Outcome State Fault Refusal :=
  forTimer t s fun s => .next (s.compareMatch t)

/-- TIMER_INIT, the part of ATTACH's second micro-step that makes it; no step of its own (log 17). -/
def execTimerInit (t : Nat) (s : State) : Host.Outcome State Fault Refusal :=
  forTimer t s fun s => .next (s.timerInit t)

/-- TIMER_SHUTDOWN, the part of DETACH's second micro-step that makes it; no step of its own (log 17). -/
def execTimerShutdown (t : Nat) (s : State) : Host.Outcome State Fault Refusal :=
  forTimer t s fun s => .next (s.timerShutdown t)

end Sys2Proof.Machine
end

