-- ==== Sys2Proof/Machine/Registry.lean ====
section
/-! DEFINITION. The registry commands (41_registry.md R130 to R139), each a list of atomic micro-steps. -/

namespace Sys2Proof.Machine

/-- The command word of an instruction, for cu and for FINFO; the bus accesses and the events have none. -/
def wordOf (i : Instr) : Word := (encode i).getD 0

/-! ### NOP and ILLEGAL -/

/-- NOP (R130): `done`. -/
def execNop (s : State) : Host.Outcome State Fault Refusal := runCommand (wordOf .nop) [State.done] s

/-- ILLEGAL (R139): the record of ERR_CMD with the word, and nothing else. -/
def execIllegal (c : Word) (s : State) : Host.Outcome State Fault Refusal :=
  runCommand c [fun s => (s.raise .errCmd c.toNat).done] s

/-! ### CREATE (R131) -/

/-- CREATE, micro-step 1: a full table returns the sentinel; otherwise the id is counted, and the command yields. -/
def State.createCount (s : State) : State :=
  if s.cfg.maxChannels ≤ s.channelCount.toNat then (s.setResult 0x00FF).done
  else { s with channelCount := s.channelCount + 1 }.yieldAt (wordOf .create) 2 s.channelCount

/-- CREATE, micro-step 2: the default width, and the id as the result. -/
def State.createWidth (s : State) : State :=
  let id := s.localId
  let width := BitVec.ofInt 16 (usToTicks s.cfg s.cfg.defaultPulseWidth)
  ((s.setChan id.toNat { s.chan id.toNat with pulseTicks := width }).setResult (id.setWidth 16)).done

/-- CREATE. -/
def execCreate (s : State) : Host.Outcome State Fault Refusal :=
  runCommand (wordOf .create) [State.createCount, State.createWidth] s

/-! ### ATTACH (R132) -/

/-- ATTACH, micro-step 1: the id test, the pin test and the calibration test, in this order (60_exceptions.md R211),
then the pin's mode and the channel's pin and trims. -/
def State.attachConfigure (s : State) (x : Bool) (id : ChannelId) : State :=
  let c := wordOf (.attach x id)
  let pin := s.pinOperand
  let mt := minTrimOf s.cfg (s.minUsOperand x)
  let xt := maxTrimOf s.cfg (s.maxUsOperand x)
  if ¬ s.valid id then s.done
  else if s.cfg.numPins ≤ pin then (s.raise .fltPin c.toNat).done
  else if ¬ calOK s.cfg mt xt then (s.raise .fltCal c.toNat).done
  else
    ((s.setOutput pin).setChan id.toNat
      { s.chan id.toNat with
        pin := BitVec.ofNat 8 pin, minTrim := BitVec.ofInt 8 mt, maxTrim := BitVec.ofInt 8 xt }).yieldAt c 2 id

/-- ATTACH, micro-step 2: the timer is initialised if none of its channels is active, this one included
(90_conflicts.md C3). -/
def State.attachTimer (s : State) (x : Bool) (id : ChannelId) : State :=
  let t := s.timerOf id.toNat
  (if s.timerActive t then s else s.timerInit t).yieldAt (wordOf (.attach x id)) 3 id

/-- ATTACH, micro-step 3: the channel becomes active. -/
def State.attachActivate (s : State) (id : ChannelId) : State :=
  (s.setChan id.toNat { s.chan id.toNat with isActive := true }).done

/-- ATTACH. -/
def execAttach (x : Bool) (id : ChannelId) (s : State) : Host.Outcome State Fault Refusal :=
  runCommand (wordOf (.attach x id))
    [fun s => s.attachConfigure x id, fun s => s.attachTimer x id, fun s => s.attachActivate id] s

/-! ### DETACH (R133) -/

/-- DETACH, micro-step 1: the channel becomes inactive; its pin is not driven. -/
def State.detachDeactivate (s : State) (id : ChannelId) : State :=
  if s.valid id then
    (s.setChan id.toNat { s.chan id.toNat with isActive := false }).yieldAt (wordOf (.detach id)) 2 id
  else s.done

/-- DETACH, micro-step 2: the timer is shut down if none of its channels is active. -/
def State.detachTimer (s : State) (id : ChannelId) : State :=
  let t := s.timerOf id.toNat
  (if s.timerActive t then s else s.timerShutdown t).done

/-- DETACH. -/
def execDetach (id : ChannelId) (s : State) : Host.Outcome State Fault Refusal :=
  runCommand (wordOf (.detach id)) [fun s => s.detachDeactivate id, fun s => s.detachTimer id] s

/-! ### WRITE and WRITE_US (R134, R135) -/

/-- R135, storeUs(id, v): clamp, take TRIM_DURATION off, convert, and one 16-bit store, masked: GIE is saved, cleared
and restored, never forced to 1. -/
def State.storeUs (s : State) (i : Nat) (v : Int) : State :=
  let u := s.clampUs i v - s.cfg.trimDuration
  let masked := { s with gie := false }
  { masked.setChan i { masked.chan i with pulseTicks := BitVec.ofInt 16 (usToTicks s.cfg u) } with gie := s.gie }

/-- R134: a value below MIN_PULSE_WIDTH is degrees, any other is microseconds. -/
def State.writeValueUs (s : State) (i : Nat) (v : Int) : Int :=
  if v < s.cfg.minPulseWidth then s.degToUs i v else v

/-- WRITE (R134). -/
def execWrite (id : ChannelId) (s : State) : Host.Outcome State Fault Refusal :=
  runCommand (wordOf (.write id))
    [fun s => (if s.valid id then s.storeUs id.toNat (s.writeValueUs id.toNat s.valueOperand) else s).done] s

/-- WRITE_US (R135). -/
def execWriteUs (id : ChannelId) (s : State) : Host.Outcome State Fault Refusal :=
  runCommand (wordOf (.writeUs id))
    [fun s => (if s.valid id then s.storeUs id.toNat s.valueOperand else s).done] s

/-! ### READ, READ_US and ATTACHED (R136 to R138) -/

/-- R136: the degrees, or the sentinel -1 for an invalid id. -/
def State.readValue (s : State) (id : ChannelId) : Word :=
  if s.valid id then BitVec.ofInt 16 (s.usToDeg id.toNat (s.widthUs id.toNat)) else 0xFFFF

/-- R137: the microseconds, or the sentinel 0. -/
def State.readUsValue (s : State) (id : ChannelId) : Word :=
  if s.valid id then BitVec.ofInt 16 (s.widthUs id.toNat) else 0

/-- R138: isActive, or the sentinel false. -/
def State.attachedValue (s : State) (id : ChannelId) : Word :=
  if s.valid id then (BitVec.ofBool (s.chan id.toNat).isActive).setWidth 16 else 0

/-- READ (R136). -/
def execRead (id : ChannelId) (s : State) : Host.Outcome State Fault Refusal :=
  runCommand (wordOf (.read id)) [fun s => (s.setResult (s.readValue id)).done] s

/-- READ_US (R137). -/
def execReadUs (id : ChannelId) (s : State) : Host.Outcome State Fault Refusal :=
  runCommand (wordOf (.readUs id)) [fun s => (s.setResult (s.readUsValue id)).done] s

/-- ATTACHED (R138). -/
def execAttached (id : ChannelId) (s : State) : Host.Outcome State Fault Refusal :=
  runCommand (wordOf (.attached id)) [fun s => (s.setResult (s.attachedValue id)).done] s

end Sys2Proof.Machine
end

