-- ==== Sys2Proof/Machine/HostPort.lean ====
section
/-! DEFINITION. The host port (40_host_port.md R100 to R105) and the dispatch of a command word (R102). -/

namespace Sys2Proof.Machine

/-- R102, `execute(c)`: the decoded command's next micro-step. No word decodes to a bus access or an event (log 16). -/
def execute (c : Word) (s : State) : Host.Outcome State Fault Refusal :=
  match decode c with
  | .nop => execNop s
  | .create => execCreate s
  | .attach x id => execAttach x id s
  | .detach id => execDetach id s
  | .write id => execWrite id s
  | .writeUs id => execWriteUs id s
  | .read id => execRead id s
  | .readUs id => execReadUs id s
  | .attached id => execAttached id s
  | .illegal w => execIllegal w s
  | .hostRead _ _ | .hostWrite _ _ _ | .tick _ | .compareMatch _ | .service _ | .timerInit _ | .timerShutdown _ =>
    .refused .notACommand

/-- HOSTREAD (R100): an unsupported access records FLT_BUS and returns 0; a supported one returns the register and
changes nothing else. -/
def execHostRead (off n : Nat) (s : State) : Host.Outcome State Fault Refusal :=
  whenIdle s fun s =>
    if supported off n then .next (s.setReadData (s.regval off))
    else .next ((s.raise .fltBus off).setReadData 0)

/-- HOSTWRITE (R101): an unsupported access records FLT_BUS; CMD executes its word (R102), CTRL sets GIE from bit 0
(R104), the ARG registers take the value (R105), and every other offset ignores it (20_memory.md R67). -/
def execHostWrite (off n : Nat) (v : Word) (s : State) : Host.Outcome State Fault Refusal :=
  whenIdle s fun s =>
    if ¬ supported off n then .next (s.raise .fltBus off)
    else if off = 0x000 then execute v s
    else if off = 0x002 then .next { s with arg0 := v }
    else if off = 0x004 then .next { s with arg1 := v }
    else if off = 0x006 then .next { s with arg2 := v }
    else if off = 0x00C then .next { s with gie := v.getLsbD 0 }
    else .next s

end Sys2Proof.Machine
end

