-- ==== Sys2Proof/Machine/Sequencer.lean ====
section
/-! DEFINITION. The sequencer's service (42_scheduler.md R173 to R179). -/

namespace Sys2Proof.Machine

/-- R34: the slot a sequencer stands at, an integer; -1 is REFRESH_WAIT. -/
def Timer.slot (x : Timer) : Int := x.activeSlot.toInt

/-- R174 step 1 (R175, R176): in REFRESH_WAIT the counter restarts at 0; in DRIVING(k) the pin of that slot's channel
goes low, if the channel is valid and active. -/
def State.endPulse (s : State) (t : Nat) : State :=
  if (s.timer t).slot < 0 then
    s.setTimer t { s.timer t with tcnt := 0 }
  else
    let i := s.channelAt t (s.timer t).slot.toNat
    if i < s.channelCount.toNat ∧ (s.chan i).isActive then s.setLevel (s.chan i).pin.toNat false else s

/-- R174 step 3 (R178): the next match is pulseTicks after now, modulo 2^16; the pin of an active channel goes high;
the state becomes DRIVING(k). -/
def State.startPulse (s : State) (t k : Nat) : State :=
  let c := s.chan (s.channelAt t k)
  let scheduled := s.setTimer t
    { s.timer t with ocr := (s.timer t).tcnt + c.pulseTicks, activeSlot := BitVec.ofNat 8 k }
  if c.isActive then scheduled.setLevel c.pin.toNat true else scheduled

/-- R174 step 4 (R179): the next match is at TICKS_PER_FRAME if the margin fits before it, on integers, and else the
margin after now, modulo 2^16. -/
def refreshTarget (cfg : Config) (tcnt : Word) : Word :=
  if (tcnt.toNat : Int) + cfg.safetyMarginTicks < ticksPerFrame cfg then BitVec.ofInt 16 (ticksPerFrame cfg)
  else tcnt + BitVec.ofNat 16 cfg.safetyMarginTicks

/-- R174 step 4: the refresh tail, back to REFRESH_WAIT. -/
def State.startRefresh (s : State) (t : Nat) : State :=
  s.setTimer t { s.timer t with ocr := refreshTarget s.cfg (s.timer t).tcnt, activeSlot := -1 }

/-- R177: the slot after the one the sequencer stands at; 0 after REFRESH_WAIT. -/
def Timer.nextSlot (x : Timer) : Nat := (x.slot + 1).toNat

/-- R178: slot k of timer t exists, within the timer's capacity and the live channel count. -/
abbrev State.slotExists (s : State) (t k : Nat) : Prop :=
  k < s.cfg.channelsPerTimer ∧ s.channelAt t k < s.channelCount.toNat

/-- R174, Service(t): entry, step 1, step 2, then step 3 or step 4, then the return, in one atomic step. -/
def State.service (s : State) (t : Nat) : State :=
  let ended := (s.serviceEntry t).endPulse t
  let k := (s.timer t).nextSlot
  (if s.slotExists t k then ended.startPulse t k else ended.startRefresh t).serviceReturn

/-- SERVICE. It is taken only when OCF, OCIE and GIE are 1 (R173); otherwise the sequencer has no step, and nothing
changes (log 5). An activeSlot that no rule stores stops (log 11). -/
def execService (t : Nat) (s : State) : Host.Outcome State Fault Refusal :=
  forTimer t s fun s =>
    if serviceEnabled (s.timer t) s.gie then
      if (s.timer t).slot < -1 ∨ (s.cfg.channelsPerTimer : Int) ≤ (s.timer t).slot then .fault .activeSlotOutOfRange
      else .next (s.service t)
    else .next s

end Sys2Proof.Machine
end

