-- ==== Sys2Proof/Machine/Dispatch.lean ====
section
/-! DEFINITION. One arm for each constructor of Instr, each one call of its meaning. -/

namespace Sys2Proof.Machine

/-- The effect of one instruction. A command word runs its next micro-step. -/
def exec (i : Instr) (s : State) : Host.Outcome State Fault Refusal :=
  match i with
  -- command words (41_registry.md)
  | .nop => Sys2Proof.Machine.execNop s
  | .create => Sys2Proof.Machine.execCreate s
  | .attach x id => Sys2Proof.Machine.execAttach x id s
  | .detach id => Sys2Proof.Machine.execDetach id s
  | .write id => Sys2Proof.Machine.execWrite id s
  | .writeUs id => Sys2Proof.Machine.execWriteUs id s
  | .read id => Sys2Proof.Machine.execRead id s
  | .readUs id => Sys2Proof.Machine.execReadUs id s
  | .attached id => Sys2Proof.Machine.execAttached id s
  | .illegal c => Sys2Proof.Machine.execIllegal c s
  -- bus accesses (40_host_port.md)
  | .hostRead off n => Sys2Proof.Machine.execHostRead off n s
  | .hostWrite off n v => Sys2Proof.Machine.execHostWrite off n v s
  -- events (42_scheduler.md)
  | .tick t => Sys2Proof.Machine.execTick t s
  | .compareMatch t => Sys2Proof.Machine.execCompareMatch t s
  | .service t => Sys2Proof.Machine.execService t s
  | .timerInit t => Sys2Proof.Machine.execTimerInit t s
  | .timerShutdown t => Sys2Proof.Machine.execTimerShutdown t s

end Sys2Proof.Machine
end

