-- ==== Sys2Proof/WellFormed.lean ====
section
/-! DEFINITION. Which configurations (00_scope.md R6) and which instructions are well formed. -/

namespace Sys2Proof

open Sys2Proof.Machine in
/-- R6, constraints (1) to (10), in order. -/
abbrev Config.wf (cfg : Config) : Prop :=
  (1 ≤ cfg.numTimers ∧ cfg.numTimers ≤ 8) ∧
  (1 ≤ cfg.channelsPerTimer ∧ cfg.channelsPerTimer ≤ 127) ∧
  cfg.maxChannels ≤ 255 ∧
  (1 ≤ cfg.numPins ∧ cfg.numPins ≤ 256) ∧
  (1 ≤ cfg.cycPerUs ∧ 1 ≤ cfg.prescale) ∧
  (cfg.trimDuration ≤ cfg.minPulseWidth ∧ cfg.minPulseWidth < cfg.maxPulseWidth ∧ cfg.maxPulseWidth ≤ 32767) ∧
  usToTicks cfg (cfg.maxPulseWidth - cfg.trimDuration) ≤ 0xFFFF ∧
  (cfg.defaultPulseWidth ≤ 32767 ∧ usToTicks cfg cfg.defaultPulseWidth ≤ 0xFFFF) ∧
  (1 ≤ ticksPerFrame cfg ∧ ticksPerFrame cfg ≤ 0xFFFF) ∧
  ((1 ≤ cfg.safetyMarginTicks ∧ cfg.safetyMarginTicks ≤ 0xFFFF) ∧ 1 ≤ cfg.initCompare ∧ cfg.initCompare ≤ 0xFFFF)

/-- Is the instruction one that the spec has? An ILLEGAL word is one R85 rejects, and an event names a timer of the
configuration. The host may issue an access of any offset and width (40_host_port.md R108 (1)). -/
def Instr.wf (cfg : Config) : Instr → Bool
  | .nop => true
  | .create => true
  | .attach _ _ => true
  | .detach _ => true
  | .write _ => true
  | .writeUs _ => true
  | .read _ => true
  | .readUs _ => true
  | .attached _ => true
  | .illegal c => decide (¬ legal c)
  | .hostRead _ _ => true
  | .hostWrite _ _ _ => true
  | .tick t => decide (t < cfg.numTimers)
  | .compareMatch t => decide (t < cfg.numTimers)
  | .service t => decide (t < cfg.numTimers)
  | .timerInit t => decide (t < cfg.numTimers)
  | .timerShutdown t => decide (t < cfg.numTimers)

end Sys2Proof
end

