-- ==== Sys2Proof/Machine/Agents.lean ====
section
/-! DEFINITION. Which agent steps: the schedule, the command unit and the stalled host (00_scope.md R4, 40_host_port.md
R102, R103). -/

namespace Sys2Proof.Machine

/-- A step of the command unit: the next micro-step of the word in progress. An idle unit has none (log 5). -/
def resume (s : State) : Host.Outcome State Fault Refusal :=
  match s.cu with
  | .idle => .next s
  | .busy c _ _ => exec (decode c) s

/-- A host access i. While a command is in progress the host is stalled: its access waits, and the command takes its
next micro-step (R102). `taken` is the state with the access off the schedule. -/
def hostStep (i : Instr) (taken s : State) : Host.Outcome State Fault Refusal :=
  match s.cu with
  | .idle => exec i taken
  | .busy _ _ _ => resume s

/-- One step of the agent that the schedule names. When it names none, a command in progress goes on, and an idle SPS
stands still (70_reset_and_hazards.md R231). A configuration that is not well formed is refused (00_scope.md R6). -/
def agentStep (s : State) : Host.Outcome State Fault Refusal :=
  if s.cfg.wf then
    match s.pending with
    | [] => resume s
    | .hostRead off n :: rest => hostStep (.hostRead off n) { s with pending := rest } s
    | .hostWrite off n v :: rest => hostStep (.hostWrite off n v) { s with pending := rest } s
    | .microStep :: rest => resume { s with pending := rest }
    | .tick t :: rest => exec (.tick t) { s with pending := rest }
    | .service t :: rest => exec (.service t) { s with pending := rest }
  else .refused .configNotWellFormed

/-- The state whose next step is the host's write of word w to CMD, the way an instruction comes to run (log 4). -/
def withCommandWord (s : State) (w : Word) : State :=
  { s with cu := .idle, pending := .hostWrite 0x000 2 w :: s.pending }

end Sys2Proof.Machine
end

