-- ==== Sys2Proof/Machine/Step.lean ====
section
/-! DEFINITION. One step of the machine, and how a command word comes to run next. -/

namespace Sys2Proof.Machine

/-- One step of one agent (20_memory.md R71). -/
def step (s : State) : Host.Outcome State Fault Refusal := agentStep s

/-- The command word w as the host's next access: the SPS fetches nothing (10_state.md R43), so an instruction runs when
the host writes it to CMD. The one format has 16 bits, so nbits says nothing more (30_encoding.md R90; log 4). -/
def State.withFetchWord (s : State) (_nbits w : Nat) : State := withCommandWord s (BitVec.ofNat 16 w)

end Sys2Proof.Machine
end

