-- ==== Sys2Proof/Safety.lean ====
section
/-! DEFINITION. What the claims speak of: the invariants of 10_state.md R45 and 70_reset_and_hazards.md R233, and runs
of several instructions. -/

namespace Sys2Proof.Machine

namespace State

/-- The tables have the sizes of the configuration (10_state.md R20). -/
abbrev SizesOK (s : State) : Prop :=
  s.ch.length = s.cfg.maxChannels ∧ s.tm.length = s.cfg.numTimers ∧ s.mode.length = s.cfg.numPins ∧
    s.level.length = s.cfg.numPins

/-- R45 (1). -/
abbrev CountOK (s : State) : Prop := s.channelCount.toNat ≤ s.cfg.maxChannels

/-- R45 (2): a channel not yet created holds its reset values. The channel that a CREATE has counted and not yet given
its width lies below the count; `CommandOK` speaks of it. -/
abbrev UncreatedReset (s : State) : Prop :=
  ∀ i, i < s.cfg.maxChannels → s.channelCount.toNat ≤ i → s.chan i = Channel.reset

/-- R45 (3) and (4): activeSlot is -1 or the slot of a created channel. -/
abbrev SlotsOK (s : State) : Prop :=
  ∀ t, t < s.cfg.numTimers → -1 ≤ (s.timer t).slot ∧ (s.timer t).slot < s.cfg.channelsPerTimer ∧
    (0 ≤ (s.timer t).slot → s.channelAt t (s.timer t).slot.toNat < s.channelCount.toNat)

/-- R45 (5): an enabled timer runs. -/
abbrev EnabledRuns (s : State) : Prop := ∀ t, t < s.cfg.numTimers → (s.timer t).ocie = true → (s.timer t).trun = true

/-- R45 (6): an active channel has a pin of the board, an output. -/
abbrev ActivePinsOK (s : State) : Prop :=
  ∀ i, i < s.cfg.maxChannels → (s.chan i).isActive = true →
    (s.chan i).pin.toNat < s.cfg.numPins ∧ s.modeOf (s.chan i).pin.toNat = true

/-- R233: a timer with an active channel is enabled and runs. -/
abbrev ActiveTimersOK (s : State) : Prop :=
  ∀ t, t < s.cfg.numTimers → s.timerActive t = true → (s.timer t).ocie = true ∧ (s.timer t).trun = true

/-- R125: every channel's trims are a legal calibration, so its envelope is not empty. -/
abbrev TrimsOK (s : State) : Prop :=
  ∀ i, i < s.cfg.maxChannels → calOK s.cfg (s.chan i).minTrim.toInt (s.chan i).maxTrim.toInt

/-- R38, R39, R201: reserved bits are 0, FIRST is 0 or a code whose bit is set, and with FIRST = 0 nothing is
recorded. -/
abbrev StatusOK (s : State) : Prop :=
  s.status &&& 0xF0E0 = 0 ∧
    (statusFirst s.status = 0 → s.status = 0 ∧ s.finfo = 0) ∧
    (statusFirst s.status ≠ 0 →
      (statusFirst s.status).toNat ≤ 5 ∧ s.status.getLsbD ((statusFirst s.status).toNat - 1) = true)

/-- R32, R172: an overrun of a timer is recorded in STATUS bit 4. -/
abbrev OverrunsRecorded (s : State) : Prop :=
  ∀ t, t < s.cfg.numTimers → (s.timer t).ovr = true → s.status.getLsbD 4 = true

/-- 93_implementation_defined.md I12: a timer is enabled only while a channel of it is active, but for the timer of the
channel that an ATTACH is about to make active or a DETACH has just made inactive. -/
abbrev EnabledOnlyActive (s : State) (besides : Option Nat) : Prop :=
  ∀ t, t < s.cfg.numTimers → (s.timer t).ocie = true → s.timerActive t = true ∨ besides = some t

/-- R42 and 41_registry.md R131 to R133: what holds at each yield of a command, by the position of cu. -/
def CommandOK (s : State) : Bool :=
  match s.cu with
  | .idle => decide (s.EnabledOnlyActive none)
  | .busy c k id =>
    match decode c with
    | .create =>
      decide (k = 2 ∧ id.toNat + 1 = s.channelCount.toNat ∧ s.chan id.toNat = Channel.reset ∧ s.EnabledOnlyActive none)
    | .attach _ i =>
      decide (id = i ∧ s.valid i ∧ (s.chan i.toNat).pin.toNat < s.cfg.numPins ∧
        s.modeOf (s.chan i.toNat).pin.toNat = true ∧
        ((k = 2 ∧ s.EnabledOnlyActive none) ∨
          (k = 3 ∧ (s.timer (s.timerOf i.toNat)).ocie = true ∧ s.EnabledOnlyActive (some (s.timerOf i.toNat)))))
    | .detach i => decide (id = i ∧ s.valid i ∧ k = 2 ∧ s.EnabledOnlyActive (some (s.timerOf i.toNat)))
    | .nop | .write _ | .writeUs _ | .read _ | .readUs _ | .attached _ | .illegal _ | .hostRead _ _
    | .hostWrite _ _ _ | .tick _ | .compareMatch _ | .service _ | .timerInit _ | .timerShutdown _ => false

/-- The invariant of the SPS: R45 (1) to (6), R233, R125, the STATUS register and the command unit, in a well-formed
configuration. -/
structure Inv (s : State) : Prop where
  wf : s.cfg.wf
  sizes : s.SizesOK
  count : s.CountOK
  uncreated : s.UncreatedReset
  slots : s.SlotsOK
  enabledRuns : s.EnabledRuns
  activePins : s.ActivePinsOK
  activeTimers : s.ActiveTimersOK
  trims : s.TrimsOK
  statusOK : s.StatusOK
  overruns : s.OverrunsRecorded
  command : s.CommandOK = true

end State

/-- Instructions one after another, stopping at the first that stops. -/
def execList : List Instr → State → Host.Outcome State Fault Refusal
  | [], s => .next s
  | i :: is, s =>
    match exec i s with
    | .next s' => execList is s'
    | .fault f => .fault f
    | .refused r => .refused r

/-- n ticks of timer t's counter, with no other agent's step between them. -/
abbrev ticks (t n : Nat) (s : State) : Host.Outcome State Fault Refusal := execList (List.replicate n (.tick t)) s

/-- `Elapsed keep t n s s'`: from s, n ticks of timer t's counter lead to s', with any changes between them, before the
first and after the last, that `keep` allows. So the other agents may step there as often as they like. -/
inductive Elapsed (keep : State → State → Prop) (t : Nat) : Nat → State → State → Prop where
  | start (s : State) : Elapsed keep t 0 s s
  | tick {n : Nat} {s s1 s2 : State} : Elapsed keep t n s s1 → exec (.tick t) s1 = .next s2 → Elapsed keep t (n + 1) s s2
  | other {n : Nat} {s s1 s2 : State} : Elapsed keep t n s s1 → keep s1 s2 → Elapsed keep t n s s2

/-- A change that leaves timer t alone (42_scheduler.md R185). -/
abbrev State.KeepsTimer (s : State) (t : Nat) (s' : State) : Prop := s'.timer t = s.timer t ∧ s'.cfg = s.cfg

/-- A change that leaves timer t alone, and channel i active on its pin with that pin's level (42_scheduler.md R184). The
channel's width may change. -/
abbrev State.KeepsPulse (s : State) (t i : Nat) (s' : State) : Prop :=
  s.KeepsTimer t s' ∧ s.channelCount.toNat ≤ s'.channelCount.toNat ∧ (s'.chan i).isActive = (s.chan i).isActive ∧
    (s'.chan i).pin = (s.chan i).pin ∧ s'.levelOf (s.chan i).pin.toNat = s.levelOf (s.chan i).pin.toNat

/-- 42_scheduler.md R183: of the active channels of timer t, only the one whose slot the sequencer stands at has its pin
high. -/
abbrev State.OnlySlotHigh (s : State) (t : Nat) : Prop :=
  ∀ i, i < s.channelCount.toNat → s.timerOf i = t → (s.chan i).isActive = true →
    s.levelOf (s.chan i).pin.toNat = true → (s.timer t).slot = s.slotOf i

/-- 42_scheduler.md R183: the active channels of timer t have distinct pins. -/
abbrev State.DistinctPins (s : State) (t : Nat) : Prop :=
  ∀ i j, i < s.channelCount.toNat → j < s.channelCount.toNat → s.timerOf i = t → s.timerOf j = t →
    (s.chan i).isActive = true → (s.chan j).isActive = true → (s.chan i).pin = (s.chan j).pin → i = j

/-- The steps of the counters and the sequencers, the only ones that fall between two micro-steps (40_host_port.md
R103). -/
def isEvent : Instr → Bool
  | .tick _ | .service _ => true
  | .nop | .create | .attach _ _ | .detach _ | .write _ | .writeUs _ | .read _ | .readUs _ | .attached _
  | .illegal _ | .hostRead _ _ | .hostWrite _ _ _ | .compareMatch _ | .timerInit _ | .timerShutdown _ => false

/-- The words of the registry commands and of ILLEGAL: the instructions that the command unit runs (30_encoding.md
R81). -/
def isCommand : Instr → Bool
  | .nop | .create | .attach _ _ | .detach _ | .write _ | .writeUs _ | .read _ | .readUs _ | .attached _
  | .illegal _ => true
  | .hostRead _ _ | .hostWrite _ _ _ | .tick _ | .compareMatch _ | .service _ | .timerInit _
  | .timerShutdown _ => false

end Sys2Proof.Machine
end

