-- ==== Sys2Proof/Certificates/Slice0/Obligations.lean ====
section
/-! DEFINITION. The statements about the SPS. Each docstring names the rule of spec/ that it formalises; where an effect
is written as a next state, every field it does not name is unchanged. -/

open Sys2Proof Sys2Proof.Machine

/-! ### Command words -/

/-- The words of 95_test_vectors.md V1 to V13, written out from 30_encoding.md R80 and R81. -/
def Obligations.TableWordsDecode : Prop :=
  decode 0x0000 = .nop ∧ decode 0x1000 = .create ∧ decode 0x2005 = .attach false 5 ∧ decode 0x2105 = .attach true 5 ∧
  decode 0x21FF = .attach true 0xFF ∧
  decode 0x30FF = .detach 0xFF ∧ decode 0x4003 = .write 3 ∧ decode 0x5003 = .writeUs 3 ∧ decode 0x6003 = .read 3 ∧
  decode 0x7003 = .readUs 3 ∧ decode 0x8003 = .attached 3 ∧ decode 0x0001 = .illegal 0x0001 ∧
  decode 0x1005 = .illegal 0x1005 ∧ decode 0x0E00 = .illegal 0x0E00 ∧ decode 0x22FF = .illegal 0x22FF ∧
  decode 0x3105 = .illegal 0x3105 ∧ decode 0x8103 = .illegal 0x8103 ∧ decode 0x9000 = .illegal 0x9000 ∧
  decode 0xF0FF = .illegal 0xF0FF ∧ decode 0xFFFF = .illegal 0xFFFF

/-- 30_encoding.md R85, on the word as a number: which words are legal, what each legal word decodes to, and that every
other word decodes to ILLEGAL. -/
def Obligations.WordsDecodeByTheirFields : Prop :=
  ∀ (c : Word) (op rsv x : Nat) (id : ChannelId),
    op = c.toNat / 4096 → rsv = c.toNat / 512 % 8 → x = c.toNat / 256 % 2 → id.toNat = c.toNat % 256 →
    (legal c ↔ op ≤ 8 ∧ rsv = 0 ∧ (x = 0 ∨ op = 2) ∧ ((op ≠ 0 ∧ op ≠ 1) ∨ id = 0)) ∧
    (¬ legal c → decode c = .illegal c) ∧
    (legal c →
      (op = 0 → decode c = .nop) ∧ (op = 1 → decode c = .create) ∧ (op = 2 → decode c = .attach (x == 1) id) ∧
      (op = 3 → decode c = .detach id) ∧ (op = 4 → decode c = .write id) ∧ (op = 5 → decode c = .writeUs id) ∧
      (op = 6 → decode c = .read id) ∧ (op = 7 → decode c = .readUs id) ∧ (op = 8 → decode c = .attached id))

/-- Decoding the word of a well-formed command gives it back, with every operand at every value (30_encoding.md R80 to
R85). -/
def Obligations.DecodeInvertsEncode : Prop :=
  ∀ (cfg : Config) (i : Instr) (c : Word), i.wf cfg = true → encode i = some c → decode c = i

/-- Every word is the word of what it decodes to, which is a well-formed command: no two words decode alike, and no word
is an access or an event (30_encoding.md R85, R88, R89). -/
def Obligations.EncodeInvertsDecode : Prop :=
  ∀ (cfg : Config) (c : Word), encode (decode c) = some c ∧ (decode c).wf cfg = true ∧ isCommand (decode c) = true

/-- 20_memory.md R65: bits 7:0 are the byte at the even offset, bits 15:8 the byte after it, in a register's image and in
a command word's. -/
def Obligations.ByteImagesAreLittleEndian : Prop :=
  (∀ (s : State) (off : Nat), off % 2 = 0 → s.regByte (off + 1) ++ s.regByte off = s.regval off) ∧
  (∀ (lo hi : Byte) (rest : List Byte), ∃ c : Word, decodeBytes (lo :: hi :: rest) = .ok (decode c, rest) ∧
    c.toNat = lo.toNat + 256 * hi.toNat)

/-! ### Steps of the agents -/

/-- A step runs the decoded instruction: a CMD write at the head of the schedule, with the host not stalled, is the
decoded word's first micro-step, and while a word is in progress a microStep is the decoded word's next one. Any other
step is the step of the agent that the schedule names: a tick or a service at any time, a host access while the host is
not stalled (00_scope.md R4, 40_host_port.md R102, R103). The model's own choices: the order of the steps is a list whose
head a step takes off, and an idle SPS with an empty list stands still (log 3); a microStep of an idle command unit
changes nothing but the list (log 5). -/
def Obligations.StepRunsTheDecodedInstruction : Prop :=
  ∀ (s : State) (rest : List Move), s.cfg.wf →
    (∀ c, s.pending = .hostWrite 0x000 2 c :: rest → s.cu = .idle → step s = exec (decode c) { s with pending := rest }) ∧
    (∀ c k id, s.pending = .microStep :: rest → s.cu = .busy c k id →
      step s = exec (decode c) { s with pending := rest }) ∧
    (∀ off n, s.pending = .hostRead off n :: rest → s.cu = .idle →
      step s = exec (.hostRead off n) { s with pending := rest }) ∧
    (∀ off n v, s.pending = .hostWrite off n v :: rest → s.cu = .idle →
      step s = exec (.hostWrite off n v) { s with pending := rest }) ∧
    (∀ t, s.pending = .tick t :: rest → step s = exec (.tick t) { s with pending := rest }) ∧
    (∀ t, s.pending = .service t :: rest → step s = exec (.service t) { s with pending := rest }) ∧
    (s.pending = .microStep :: rest → s.cu = .idle → step s = .next { s with pending := rest }) ∧
    (s.pending = [] → s.cu = .idle → step s = .next s)

/-- The host's next access is ordered after the last micro-step of its command: while a command is in progress, an access
at the head of the schedule waits there (40_host_port.md R102). The model's own choices: the step with a waiting access
is the command's next micro-step (log 9), and so is the step with an empty schedule (log 3). -/
def Obligations.StalledHostWaits : Prop :=
  ∀ (s s' : State) (c : Word) (k : Nat) (id : ChannelId), s.cfg.wf → s.cu = .busy c k id →
    (s.pending = [] ∨ (∃ off n rest, s.pending = .hostRead off n :: rest) ∨
      (∃ off n v rest, s.pending = .hostWrite off n v :: rest)) →
    step s = exec (decode c) s ∧ (step s = .next s' → s'.pending = s.pending)

/-- A CMD write completes: with no event of another agent scheduled at its yields, the command takes at most three steps
and ends with the command unit idle and only its own access off the schedule; CREATE and DETACH have at most one yield,
ATTACH at most two, the rest none (40_host_port.md R102, R103). That the command goes on while the schedule is empty or a
host access waits at its head is the model's own choice (logs 3 and 9). -/
def Obligations.CommandCompletesInItsMicroSteps : Prop :=
  ∀ (s : State) (c : Word) (rest : List Move), s.cfg.wf → s.cu = .idle → s.pending = .hostWrite 0x000 2 c :: rest →
    (rest = [] ∨ (∃ off n more, rest = .hostRead off n :: more) ∨ (∃ off n v more, rest = .hostWrite off n v :: more)) →
    ∃ (n : Nat) (s' : State), 1 ≤ n ∧ Host.Core.run core n s = .next s' ∧ s'.cu = .idle ∧ s'.pending = rest ∧
      (∀ x id, decode c = .attach x id → n ≤ 3) ∧
      (∀ id, decode c = .detach id ∨ decode c = .create → n ≤ 2) ∧
      ((∀ x id, decode c ≠ .attach x id) → (∀ id, decode c ≠ .detach id) → decode c ≠ .create → n = 1)

/-- 00_scope.md R6: a configuration that is not well formed is refused; CFG-A and CFG-B are well formed. The parameters
and constants that R5 gives a value have it in every configuration: REFRESH_INTERVAL, TRIM_DURATION, INIT_COMPARE,
READ_BIAS_US, MAX_CHANNELS and TICKS_PER_FRAME. -/
def Obligations.OnlyWellFormedConfigurationsRun : Prop :=
  (∀ s : State, ¬ s.cfg.wf → step s = .refused .configNotWellFormed) ∧ Config.cfgA.wf ∧ Config.cfgB.wf ∧
  ∀ cfg : Config, cfg.wf →
    cfg.refreshInterval = 20000 ∧ cfg.trimDuration = 2 ∧ cfg.initCompare = cfg.safetyMarginTicks ∧ cfg.readBiasUs = 0 ∧
    cfg.maxChannels = cfg.numTimers * cfg.channelsPerTimer ∧
    ticksPerFrame cfg = (20000 * cfg.cycPerUs / cfg.prescale : Nat)

/-- 10_state.md R27: the partition of the channels over the timers. -/
def Obligations.ChannelsPartitionOverTimers : Prop :=
  ∀ (s : State) (i : Nat), s.cfg.wf → i < s.cfg.maxChannels →
    s.timerOf i = i / s.cfg.channelsPerTimer ∧ s.slotOf i = i % s.cfg.channelsPerTimer ∧
    s.timerOf i < s.cfg.numTimers ∧ s.slotOf i < s.cfg.channelsPerTimer ∧
    s.channelAt (s.timerOf i) (s.slotOf i) = i

/-! ### Reset and the invariant -/

/-- 10_state.md R44: every piece of state and every host-read pattern after reset, in any well-formed configuration. -/
def Obligations.ResetHoldsTheTable : Prop :=
  ∀ (cfg : Config) (s : State), cfg.wf → s = State.resetOf cfg →
    (s.ch.length = cfg.maxChannels ∧ s.tm.length = cfg.numTimers ∧ s.mode.length = cfg.numPins ∧
      s.level.length = cfg.numPins) ∧
    (∀ i, i < cfg.maxChannels → s.chan i = { pin := 0, isActive := false, pulseTicks := 0, minTrim := 0, maxTrim := 0 } ∧
      ∀ r, r < 8 → s.regval (0x100 + 8 * i + r) = 0) ∧
    (∀ t, t < cfg.numTimers →
      s.timer t = { tcnt := 0, ocr := 0, ocie := false, ocf := false, ovr := false, trun := false, activeSlot := 0xFF } ∧
      s.regval (0x020 + 8 * t) = 0 ∧ s.regval (0x020 + 8 * t + 2) = 0 ∧ s.regval (0x020 + 8 * t + 4) = 0xFF00) ∧
    (∀ p, p < cfg.numPins → s.modeOf p = false ∧ s.levelOf p = false ∧ s.pinOut p = none) ∧
    (∀ k, k < 16 → s.regval (0x900 + 2 * k) = 0 ∧ s.regval (0x920 + 2 * k) = 0) ∧
    (s.channelCount = 0 ∧ s.gie = false ∧ s.status = 0 ∧ s.finfo = 0 ∧ s.arg0 = 0 ∧ s.arg1 = 0 ∧ s.arg2 = 0 ∧
      s.result = 0 ∧ s.cu = .idle) ∧
    (∀ off, off ≤ 0x010 → s.regval off = 0)

/-- The invariant holds after reset, in any well-formed configuration (10_state.md R44, R45). -/
def Obligations.ResetMeetsTheInvariant : Prop :=
  (∀ cfg : Config, cfg.wf → (State.resetOf cfg).Inv) ∧ State.reset.Inv

/-- The invariant of R45, R233 and R125 is kept by every step, from every state that meets it, under every schedule. -/
def Obligations.EveryStepKeepsTheInvariant : Prop :=
  ∀ s s' : State, s.Inv → step s = .next s' → s'.Inv

/-- No operation aborts (60_exceptions.md): in a state of the invariant, a step whose agent exists gives a next state. -/
def Obligations.InvariantStatesNeverStop : Prop :=
  ∀ s : State, s.Inv →
    (∀ t rest, s.pending = .tick t :: rest ∨ s.pending = .service t :: rest → t < s.cfg.numTimers) →
    ∃ s', step s = .next s'

/-- 70_reset_and_hazards.md R230, 10_state.md R32, R35, 60_exceptions.md R207: no step takes back what only reset clears:
channelCount, STATUS, FINFO once recorded, TRUN, OVR, MODE. And no step changes the configuration (the model's own
choice, log 1). -/
def Obligations.OnlyResetClearsStickyState : Prop :=
  ∀ s s' : State, step s = .next s' →
    s.channelCount.toNat ≤ s'.channelCount.toNat ∧
    (∀ j, s.status.getLsbD j = true → s'.status.getLsbD j = true) ∧
    (statusFirst s.status ≠ 0 → statusFirst s'.status = statusFirst s.status ∧ s'.finfo = s.finfo) ∧
    (∀ t, (s.timer t).trun = true → (s'.timer t).trun = true) ∧
    (∀ t, (s.timer t).ovr = true → (s'.timer t).ovr = true) ∧
    (∀ p, s.modeOf p = true → s'.modeOf p = true) ∧
    s'.cfg = s.cfg

/-! ### The arithmetic -/

/-- 41_registry.md R125: what calOK asks, on plain numbers; in CFG-A every pair of 8-bit trims is legal. -/
def Obligations.LegalCalibrations : Prop :=
  (∀ (cfg : Config) (mt xt lo hi : Int), cfg.wf → lo = cfg.minPulseWidth - 4 * mt → hi = cfg.maxPulseWidth - 4 * xt →
    (calOK cfg mt xt ↔
      (-128 ≤ mt ∧ mt ≤ 127 ∧ -128 ≤ xt ∧ xt ≤ 127) ∧ lo < hi ∧ 0 ≤ lo - cfg.trimDuration ∧
        Int.tdiv ((hi - cfg.trimDuration) * cfg.cycPerUs) cfg.prescale ≤ 0xFFFF)) ∧
  (∀ mt xt : Int, -128 ≤ mt → mt ≤ 127 → -128 ≤ xt → xt ≤ 127 → calOK Config.cfgA mt xt)

/-- 41_registry.md R126, R127: the clamp and the map of degrees. Clamped values and mapped degrees lie in the channel's
envelope; a value in the envelope is its own clamp; 0 and 180 degrees are the ends. -/
def Obligations.WidthsStayInTheEnvelope : Prop :=
  ∀ (s : State) (i : Nat) (lo hi v : Int), lo = s.cfg.minPulseWidth - 4 * (s.chan i).minTrim.toInt →
    hi = s.cfg.maxPulseWidth - 4 * (s.chan i).maxTrim.toInt → lo < hi →
    (lo ≤ s.clampUs i v ∧ s.clampUs i v ≤ hi) ∧ (lo ≤ v → v ≤ hi → s.clampUs i v = v) ∧
    (v < lo → s.clampUs i v = lo) ∧ (hi < v → s.clampUs i v = hi) ∧
    s.degToUs i v = lo + min (max v 0) 180 * (hi - lo) / 180 ∧
    (lo ≤ s.degToUs i v ∧ s.degToUs i v ≤ hi) ∧ (v ≤ 0 → s.degToUs i v = lo) ∧ (180 ≤ v → s.degToUs i v = hi)

/-! ### The registry commands -/

/-- 41_registry.md R130: NOP changes no state, and a word with OP 0 and any other bit set is ILLEGAL. -/
def Obligations.NopChangesNothing : Prop :=
  (∀ s : State, s.cu = .idle → exec .nop s = .next s) ∧ decode 0x0000 = .nop ∧
  (∀ c : Word, c.toNat < 0x1000 → c ≠ 0 → decode c = .illegal c)

/-- 41_registry.md R139, 60_exceptions.md R202: ILLEGAL records ERR_CMD with the word and has no other effect. -/
def Obligations.IllegalWordsOnlyRecord : Prop :=
  ∀ (c : Word) (s : State), s.cu = .idle →
    exec (.illegal c) s =
      .next { s with
        status := if s.status.extractLsb' 8 4 = 0 then s.status ||| 0x0101 else s.status ||| 0x0001
        finfo := if s.status.extractLsb' 8 4 = 0 then c else s.finfo } ∧
    (¬ legal c → decode c = .illegal c)

/-- 41_registry.md R131: CREATE's two micro-steps, the sentinel of a full table, and its only encoding. -/
def Obligations.CreateCountsThenSetsTheWidth : Prop :=
  (∀ c : Word, decode c = .create ↔ c = 0x1000) ∧
  (∀ s : State, s.cu = .idle → s.channelCount.toNat < s.cfg.maxChannels →
    exec .create s =
      .next { s with channelCount := s.channelCount + 1, cu := .busy 0x1000 2 s.channelCount }) ∧
  (∀ s : State, s.cu = .idle → s.cfg.maxChannels ≤ s.channelCount.toNat →
    exec .create s = .next { s with result := 0x00FF }) ∧
  (∀ (s : State) (id : ChannelId), s.cu = .busy 0x1000 2 id → 1 ≤ s.cfg.prescale →
    exec .create s =
      .next { s with
        ch := s.ch.set id.toNat
          { s.chan id.toNat with
            pulseTicks := BitVec.ofNat 16 (s.cfg.defaultPulseWidth * s.cfg.cycPerUs / s.cfg.prescale) }
        result := BitVec.ofNat 16 id.toNat
        cu := .idle })

/-- 41_registry.md R142: from reset, CREATEs return 0, 1, ... in order, and once the table is full every further one
returns 0x00FF and changes nothing else. A CREATE that finds a free entry takes two steps, the others one. -/
def Obligations.CreatesReturnIncreasingIds : Prop :=
  ∀ (cfg : Config) (k : Nat), cfg.wf → k ≤ cfg.maxChannels →
    ∃ s : State,
      Host.Core.run core (2 * k) { State.resetOf cfg with pending := List.replicate k (.hostWrite 0x000 2 0x1000) } =
        .next s ∧
      s.pending = [] ∧ s.cu = .idle ∧ s.channelCount.toNat = k ∧ (1 ≤ k → s.result.toNat = k - 1) ∧
      (k = cfg.maxChannels → ∀ j, 1 ≤ j →
        Host.Core.run core j { s with pending := List.replicate j (.hostWrite 0x000 2 0x1000) } =
          .next { s with result := 0x00FF })

/-- ATTACH, micro-step 1, on a valid id, a pin of the board and a legal calibration (41_registry.md R132, R123;
30_encoding.md R82, R86, R87): the pin becomes an output and the channel takes its pin and trims; the command yields. -/
def Obligations.AttachConfiguresPinAndTrims : Prop :=
  ∀ (s : State) (x : Bool) (id : ChannelId) (minUs maxUs mt xt : Int), s.cu = .idle → s.valid id →
    s.arg0.toNat < s.cfg.numPins →
    minUs = (if x then s.arg1.toInt else (s.cfg.minPulseWidth : Int)) →
    maxUs = (if x then s.arg2.toInt else (s.cfg.maxPulseWidth : Int)) →
    mt = Int.tdiv (s.cfg.minPulseWidth - minUs) 4 → xt = Int.tdiv (s.cfg.maxPulseWidth - maxUs) 4 → calOK s.cfg mt xt →
    exec (.attach x id) s =
      .next { s with
        mode := s.mode.set s.arg0.toNat true
        ch := s.ch.set id.toNat
          { s.chan id.toNat with
            pin := BitVec.ofNat 8 s.arg0.toNat, minTrim := BitVec.ofInt 8 mt, maxTrim := BitVec.ofInt 8 xt }
        cu := .busy (BitVec.ofNat 16 (0x2000 + 0x100 * x.toNat + id.toNat)) 2 id }

/-- ATTACH, micro-steps 2 and 3: the timer is initialised exactly when no channel of it is active, the attaching one
included, and the command yields; then the channel becomes active, and the command ends (41_registry.md R129, R132,
90_conflicts.md C3, 42_scheduler.md R180). -/
def Obligations.AttachInitialisesThenActivates : Prop :=
  ∀ (s : State) (x : Bool) (id : ChannelId) (c : Word) (t : Nat),
    c = BitVec.ofNat 16 (0x2000 + 0x100 * x.toNat + id.toNat) → t = id.toNat / s.cfg.channelsPerTimer →
    (s.cu = .busy c 2 id →
      (∃ j, j < s.cfg.maxChannels ∧ j / s.cfg.channelsPerTimer = t ∧ (s.chan j).isActive = true) →
      exec (.attach x id) s = .next { s with cu := .busy c 3 id }) ∧
    (s.cu = .busy c 2 id →
      (∀ j, j < s.cfg.maxChannels → j / s.cfg.channelsPerTimer = t → (s.chan j).isActive = false) →
      exec (.attach x id) s =
        .next { s with
          tm := s.tm.set t
            { s.timer t with
              trun := true, tcnt := 0, ocr := BitVec.ofNat 16 s.cfg.initCompare, ocf := false, activeSlot := 0xFF,
              ocie := true }
          cu := .busy c 3 id }) ∧
    (s.cu = .busy c 3 id →
      exec (.attach x id) s =
        .next { s with ch := s.ch.set id.toNat { s.chan id.toNat with isActive := true }, cu := .idle })

/-- 60_exceptions.md R203, R204: on a valid id, a pin out of range records FLT_PIN, and otherwise a calibration that
fails calOK records FLT_CAL, with the command word; nothing else changes. -/
def Obligations.FaultedAttachOnlyRecords : Prop :=
  ∀ (s : State) (x : Bool) (id : ChannelId) (c : Word) (minUs maxUs : Int),
    c = BitVec.ofNat 16 (0x2000 + 0x100 * x.toNat + id.toNat) → s.cu = .idle → s.valid id →
    minUs = (if x then s.arg1.toInt else (s.cfg.minPulseWidth : Int)) →
    maxUs = (if x then s.arg2.toInt else (s.cfg.maxPulseWidth : Int)) →
    (s.cfg.numPins ≤ s.arg0.toNat →
      exec (.attach x id) s =
        .next { s with
          status := if s.status.extractLsb' 8 4 = 0 then s.status ||| 0x0304 else s.status ||| 0x0004
          finfo := if s.status.extractLsb' 8 4 = 0 then c else s.finfo }) ∧
    (s.arg0.toNat < s.cfg.numPins →
      ¬ calOK s.cfg (Int.tdiv (s.cfg.minPulseWidth - minUs) 4) (Int.tdiv (s.cfg.maxPulseWidth - maxUs) 4) →
      exec (.attach x id) s =
        .next { s with
          status := if s.status.extractLsb' 8 4 = 0 then s.status ||| 0x0202 else s.status ||| 0x0002
          finfo := if s.status.extractLsb' 8 4 = 0 then c else s.finfo })

/-- DETACH on an invalid id changes nothing. Its two micro-steps on a valid one: the channel becomes inactive and its pin, mode and trims are kept; then the timer's compare
interrupt is disabled exactly when no channel of it is active (41_registry.md R133, 42_scheduler.md R181). -/
def Obligations.DetachShutsDownAnIdleTimer : Prop :=
  ∀ (s : State) (id : ChannelId) (c : Word) (t : Nat),
    c = BitVec.ofNat 16 (0x3000 + id.toNat) → t = id.toNat / s.cfg.channelsPerTimer →
    (s.cu = .idle → ¬ s.valid id → exec (.detach id) s = .next s) ∧
    (s.cu = .idle → s.valid id →
      exec (.detach id) s =
        .next { s with ch := s.ch.set id.toNat { s.chan id.toNat with isActive := false }, cu := .busy c 2 id }) ∧
    (s.cu = .busy c 2 id →
      (∃ j, j < s.cfg.maxChannels ∧ j / s.cfg.channelsPerTimer = t ∧ (s.chan j).isActive = true) →
      exec (.detach id) s = .next { s with cu := .idle }) ∧
    (s.cu = .busy c 2 id →
      (∀ j, j < s.cfg.maxChannels → j / s.cfg.channelsPerTimer = t → (s.chan j).isActive = false) →
      exec (.detach id) s = .next { s with tm := s.tm.set t { s.timer t with ocie := false }, cu := .idle })

/-- 41_registry.md R133 corner case 2: a second DETACH of the same id leaves the state as the first left it. -/
def Obligations.DetachTwiceIsDetachOnce : Prop :=
  ∀ (s : State) (id : ChannelId), s.cu = .idle → s.valid id →
    ∃ s1 : State, execList [.detach id, .detach id] s = .next s1 ∧ s1.cu = .idle ∧
      (s1.chan id.toNat).isActive = false ∧ execList [.detach id, .detach id] s1 = .next s1

/-- 42_scheduler.md R181, 95_test_vectors.md E7 (and log 5 for the services of the disabled timer): while a timer's compare interrupt is disabled, no run of ticks and
services moves its sequencer, whatever the schedule: activeSlot, OCR, OCIE and OVR stay. -/
def Obligations.DisabledTimerIsNotServed : Prop :=
  ∀ (is : List Instr) (s s' : State) (t : Nat), (∀ i ∈ is, isEvent i = true) → (s.timer t).ocie = false →
    execList is s = .next s' →
    (s'.timer t).ocie = false ∧ (s'.timer t).activeSlot = (s.timer t).activeSlot ∧
    (s'.timer t).ocr = (s.timer t).ocr ∧ (s'.timer t).ovr = (s.timer t).ovr ∧
    ((s.timer t).ocf = true → (s'.timer t).ocf = true)

/-- 41_registry.md R135: WRITE_US stores the clamped width less TRIM_DURATION, in ticks, and changes nothing else, GIE
included; the width is not negative and fits 16 bits. An invalid id changes nothing. -/
def Obligations.WriteUsStoresTheClampedWidth : Prop :=
  ∀ (s : State) (id : ChannelId) (lo hi u : Int), s.cfg.wf → s.cu = .idle →
    calOK s.cfg (s.chan id.toNat).minTrim.toInt (s.chan id.toNat).maxTrim.toInt →
    lo = s.cfg.minPulseWidth - 4 * (s.chan id.toNat).minTrim.toInt →
    hi = s.cfg.maxPulseWidth - 4 * (s.chan id.toNat).maxTrim.toInt →
    u = min (max s.arg0.toInt lo) hi - s.cfg.trimDuration →
    (¬ s.valid id → exec (.writeUs id) s = .next s) ∧
    (s.valid id →
      exec (.writeUs id) s =
        .next { s with
          ch := s.ch.set id.toNat
            { s.chan id.toNat with pulseTicks := BitVec.ofNat 16 (u.toNat * s.cfg.cycPerUs / s.cfg.prescale) } }) ∧
    0 ≤ u ∧ u.toNat * s.cfg.cycPerUs / s.cfg.prescale ≤ 0xFFFF

/-- 41_registry.md R134: WRITE reads a value below MIN_PULSE_WIDTH as degrees clamped to [0, 180] and mapped into the
channel's envelope, any other as microseconds, and stores it as WRITE_US does. An invalid id changes nothing. -/
def Obligations.WriteMapsDegreesBelowTheThreshold : Prop :=
  ∀ (s : State) (id : ChannelId) (lo hi v u : Int), s.cfg.wf → s.cu = .idle →
    calOK s.cfg (s.chan id.toNat).minTrim.toInt (s.chan id.toNat).maxTrim.toInt →
    lo = s.cfg.minPulseWidth - 4 * (s.chan id.toNat).minTrim.toInt →
    hi = s.cfg.maxPulseWidth - 4 * (s.chan id.toNat).maxTrim.toInt →
    v = s.arg0.toInt →
    (v < s.cfg.minPulseWidth → u = lo + min (max v 0) 180 * (hi - lo) / 180 - s.cfg.trimDuration) →
    ((s.cfg.minPulseWidth : Int) ≤ v → u = min (max v lo) hi - s.cfg.trimDuration) →
    (¬ s.valid id → exec (.write id) s = .next s) ∧
    (s.valid id →
      exec (.write id) s =
        .next { s with
          ch := s.ch.set id.toNat
            { s.chan id.toNat with pulseTicks := BitVec.ofNat 16 (u.toNat * s.cfg.cycPerUs / s.cfg.prescale) } })

/-- READ's result (41_registry.md R122, R128, R136): for a valid id, the stored width in microseconds with TRIM_DURATION
added back, mapped to degrees, truncated toward zero and kept to 16 bits, not clamped; for the others, -1. -/
def Obligations.ReadReturnsDegrees : Prop :=
  ∀ (s : State) (id : ChannelId) (lo hi u : Int), s.cu = .idle →
    (¬ s.valid id → exec (.read id) s = .next { s with result := 0xFFFF }) ∧
    (s.valid id → 1 ≤ s.cfg.cycPerUs →
      lo = s.cfg.minPulseWidth - 4 * (s.chan id.toNat).minTrim.toInt →
      hi = s.cfg.maxPulseWidth - 4 * (s.chan id.toNat).maxTrim.toInt → lo < hi →
      u = ((s.chan id.toNat).pulseTicks.toNat * s.cfg.prescale / s.cfg.cycPerUs : Nat) + s.cfg.trimDuration →
      exec (.read id) s =
        .next { s with result := BitVec.ofInt 16 (Int.tdiv ((u + s.cfg.readBiasUs - lo) * 180) (hi - lo)) })

/-- 41_registry.md R137, R138: the results of READ_US and ATTACHED, for a valid id and for the others. -/
def Obligations.ReadUsAndAttachedResults : Prop :=
  ∀ (s : State) (id : ChannelId), s.cu = .idle →
    (s.valid id → 1 ≤ s.cfg.cycPerUs →
      exec (.readUs id) s =
        .next { s with
          result := BitVec.ofNat 16
            ((s.chan id.toNat).pulseTicks.toNat * s.cfg.prescale / s.cfg.cycPerUs + s.cfg.trimDuration) }) ∧
    (¬ s.valid id → exec (.readUs id) s = .next { s with result := 0 }) ∧
    (s.valid id → exec (.attached id) s =
      .next { s with result := BitVec.ofNat 16 (s.chan id.toNat).isActive.toNat }) ∧
    (¬ s.valid id → exec (.attached id) s = .next { s with result := 0 })

/-- 41_registry.md R143: a command that names an invalid id changes nothing but the sentinel in RESULT and records no
fault, whatever its other operands hold; a full table gives CREATE's sentinel. -/
def Obligations.InvalidIdsAreNoOps : Prop :=
  ∀ (s : State) (id : ChannelId) (x : Bool), s.cu = .idle →
    (s.channelCount.toNat ≤ id.toNat →
      exec (.attach x id) s = .next s ∧ exec (.detach id) s = .next s ∧ exec (.write id) s = .next s ∧
      exec (.writeUs id) s = .next s ∧ exec (.read id) s = .next { s with result := 0xFFFF } ∧
      exec (.readUs id) s = .next { s with result := 0 } ∧ exec (.attached id) s = .next { s with result := 0 }) ∧
    (s.cfg.maxChannels ≤ s.channelCount.toNat → exec .create s = .next { s with result := 0x00FF })

/-- 41_registry.md R140: what READ_US returns after a WRITE_US of a width in the envelope, with any steps between that
leave the channel alone: v' with 0 <= v - v' <= ceil(PRESCALE / CYC_PER_US), and v itself when CYC_PER_US is a multiple of
PRESCALE. -/
def Obligations.MicrosecondsRoundTrip : Prop :=
  ∀ (s : State) (id : ChannelId) (v : Int), s.cfg.wf → s.cu = .idle → s.valid id → id.toNat < s.ch.length →
    calOK s.cfg (s.chan id.toNat).minTrim.toInt (s.chan id.toNat).maxTrim.toInt →
    v = s.arg0.toInt → s.effMin id.toNat ≤ v → v ≤ s.effMax id.toNat →
    ∃ s1 : State, exec (.writeUs id) s = .next s1 ∧
      ∀ s2 : State, s2.cfg = s1.cfg → s2.chan id.toNat = s1.chan id.toNat → s2.valid id → s2.cu = .idle →
        ∃ s3 : State, exec (.readUs id) s2 = .next s3 ∧
          0 ≤ v - s3.result.toNat ∧
          v - s3.result.toNat ≤ ((s.cfg.prescale + s.cfg.cycPerUs - 1) / s.cfg.cycPerUs : Nat) ∧
          (s.cfg.cycPerUs % s.cfg.prescale = 0 → (s3.result.toNat : Int) = v)

/-- 41_registry.md R141: what READ returns after a WRITE of d degrees, with any steps between that leave the channel
alone: d or d - 1. -/
def Obligations.DegreesRoundTrip : Prop :=
  ∀ (s : State) (id : ChannelId) (d : Int), s.cfg.wf → s.cu = .idle → s.valid id → id.toNat < s.ch.length →
    calOK s.cfg (s.chan id.toNat).minTrim.toInt (s.chan id.toNat).maxTrim.toInt →
    180 < s.cfg.minPulseWidth → s.cfg.cycPerUs % s.cfg.prescale = 0 → s.cfg.readBiasUs = 0 →
    180 ≤ s.effMax id.toNat - s.effMin id.toNat → d = s.arg0.toInt → 0 ≤ d → d ≤ 180 →
    ∃ s1 : State, exec (.write id) s = .next s1 ∧
      ∀ s2 : State, s2.cfg = s1.cfg → s2.chan id.toNat = s1.chan id.toNat → s2.valid id → s2.cu = .idle →
        ∃ s3 : State, exec (.read id) s2 = .next s3 ∧ (s3.result.toInt = d ∨ s3.result.toInt = d - 1)

/-- 40_host_port.md R106: a command's micro-step does the same whatever GIE holds. While GIE = 0 no service is taken; that
a SERVICE then is the step that changes nothing is the model's own choice (log 5). -/
def Obligations.MaskedCommandsRunAlike : Prop :=
  (∀ (i : Instr) (s s' : State) (b : Bool), isCommand i = true → exec i s = .next s' →
    s'.gie = s.gie ∧ exec i { s with gie := b } = .next { s' with gie := b }) ∧
  (∀ (s : State) (t : Nat), s.gie = false → t < s.cfg.numTimers → exec (.service t) s = .next s)

/-- 60_exceptions.md R215, 90_conflicts.md C8: commands never drive a pin's level and never write the operands, the read
data or GIE; only ATTACH writes MODE, the pins and the trims; only CREATE counts a channel; the timers change only by
ATTACH and by DETACH, which clears OCIE at most. -/
def Obligations.CommandsWriteOnlyTheirOwn : Prop :=
  ∀ (i : Instr) (s s' : State), isCommand i = true → exec i s = .next s' →
    (s'.level = s.level ∧ s'.arg0 = s.arg0 ∧ s'.arg1 = s.arg1 ∧ s'.arg2 = s.arg2 ∧ s'.gie = s.gie ∧
      s'.readData = s.readData ∧ s'.pending = s.pending ∧ s'.cfg = s.cfg) ∧
    ((∀ x id, i ≠ .attach x id) → s'.mode = s.mode ∧
      (∀ j, (s'.chan j).pin = (s.chan j).pin ∧ (s'.chan j).minTrim = (s.chan j).minTrim ∧
        (s'.chan j).maxTrim = (s.chan j).maxTrim) ∧
      ∀ t, { s'.timer t with ocie := (s.timer t).ocie } = s.timer t ∧
        ((s'.timer t).ocie = true → (s.timer t).ocie = true)) ∧
    ((∀ x id, i ≠ .attach x id) → (∀ id, i ≠ .detach id) →
      s'.tm = s.tm ∧ ∀ j, (s'.chan j).isActive = (s.chan j).isActive) ∧
    (i ≠ .create → s'.channelCount = s.channelCount) ∧
    ((∀ x id, i ≠ .attach x id) → (∀ c, i ≠ .illegal c) → s'.status = s.status ∧ s'.finfo = s.finfo) ∧
    (i ≠ .create → (∀ id, i ≠ .read id) → (∀ id, i ≠ .readUs id) → (∀ id, i ≠ .attached id) → s'.result = s.result) ∧
    (i ≠ .create → (∀ id, i ≠ .write id) → (∀ id, i ≠ .writeUs id) →
      ∀ j, (s'.chan j).pulseTicks = (s.chan j).pulseTicks)

/-! ### Faults and the host port -/

/-- 60_exceptions.md R207: `raise Fault(code, info)` sets the code's STATUS bit, takes FIRST and FINFO with the first
record and keeps them later, and changes nothing else. -/
def Obligations.FirstRecordIsKept : Prop :=
  ∀ (s : State) (code : FaultCode) (info n : Nat), n = code.number →
    (1 ≤ n ∧ n ≤ 5) ∧
    (∀ j, j < 16 → (j < 8 ∨ 12 ≤ j) → (s.raise code info).status.getLsbD j = (s.status.getLsbD j || j == n - 1)) ∧
    ((s.status.extractLsb' 8 4 = 0 →
      (s.raise code info).status.extractLsb' 8 4 = BitVec.ofNat 4 n ∧
      (s.raise code info).finfo = BitVec.ofNat 16 info)) ∧
    (s.status.extractLsb' 8 4 ≠ 0 →
      (s.raise code info).status.extractLsb' 8 4 = s.status.extractLsb' 8 4 ∧
      (s.raise code info).finfo = s.finfo) ∧
    s.raise code info = { s with status := (s.raise code info).status, finfo := (s.raise code info).finfo }

/-- 40_host_port.md R100, 20_memory.md R66, R68: a supported read returns the register and changes nothing else; an
unsupported one returns 0 and records FLT_BUS with the offset. -/
def Obligations.HostReadHasNoSideEffect : Prop :=
  ∀ (s : State) (off n : Nat), s.cu = .idle →
    (n = 2 → off % 2 = 0 → off ≤ 0xFFE → exec (.hostRead off n) s = .next { s with readData := s.regval off }) ∧
    (n ≠ 2 ∨ off % 2 ≠ 0 ∨ 0xFFE < off →
      exec (.hostRead off n) s =
        .next { s with
          status := if s.status.extractLsb' 8 4 = 0 then s.status ||| 0x0408 else s.status ||| 0x0008
          finfo := if s.status.extractLsb' 8 4 = 0 then BitVec.ofNat 16 off else s.finfo
          readData := 0 })

/-- 40_host_port.md R101, R104, R105, 20_memory.md R67: what a write does at each offset. -/
def Obligations.HostWriteReachesFiveRegisters : Prop :=
  ∀ (s : State) (off n : Nat) (v : Word), s.cu = .idle →
    exec (.hostWrite 0x000 2 v) s = exec (decode v) s ∧
    exec (.hostWrite 0x002 2 v) s = .next { s with arg0 := v } ∧
    exec (.hostWrite 0x004 2 v) s = .next { s with arg1 := v } ∧
    exec (.hostWrite 0x006 2 v) s = .next { s with arg2 := v } ∧
    exec (.hostWrite 0x00C 2 v) s = .next { s with gie := v.toNat % 2 == 1 } ∧
    (n = 2 → off % 2 = 0 → off ≤ 0xFFE → off ∉ [0x000, 0x002, 0x004, 0x006, 0x00C] →
      exec (.hostWrite off n v) s = .next s) ∧
    (n ≠ 2 ∨ off % 2 ≠ 0 ∨ 0xFFE < off →
      exec (.hostWrite off n v) s =
        .next { s with
          status := if s.status.extractLsb' 8 4 = 0 then s.status ||| 0x0408 else s.status ||| 0x0008
          finfo := if s.status.extractLsb' 8 4 = 0 then BitVec.ofNat 16 off else s.finfo })

/-- 60_exceptions.md R211: at most one error or fault is recorded per host access, over the whole access. The access's own
step, with a CMD write's first micro-step in it, records at most one, and none when the command goes on; the command's
later micro-steps record none. -/
def Obligations.OneRecordPerAccess : Prop :=
  (∀ (i : Instr) (s s' : State), (∃ off n, i = .hostRead off n) ∨ (∃ off n v, i = .hostWrite off n v) →
    exec i s = .next s' →
    (s'.status = s.status ∧ s'.finfo = s.finfo) ∨
    (s'.cu = .idle ∧
      ∃ code info, code ≠ .fltOvr ∧ s'.status = (s.raise code info).status ∧ s'.finfo = (s.raise code info).finfo)) ∧
  (∀ (s s' : State) (c : Word) (k : Nat) (id : ChannelId), s.cu = .busy c k id → 2 ≤ k →
    exec (decode c) s = .next s' → s'.status = s.status ∧ s'.finfo = s.finfo)

/-- 20_memory.md R61, R67: what the control registers read as, and that reserved offsets outside the windows read 0. -/
def Obligations.ControlRegistersRead : Prop :=
  ∀ s : State,
    s.regval 0x000 = 0 ∧ s.regval 0x002 = s.arg0 ∧ s.regval 0x004 = s.arg1 ∧ s.regval 0x006 = s.arg2 ∧
    s.regval 0x008 = s.result ∧ s.regval 0x00A = s.status ∧
    s.regval 0x00C = BitVec.ofNat 16 s.gie.toNat ∧ s.regval 0x00E = BitVec.ofNat 16 s.channelCount.toNat ∧
    s.regval 0x010 = s.finfo ∧
    (∀ off, (0x012 ≤ off ∧ off ≤ 0x01F) ∨ (0x060 ≤ off ∧ off ≤ 0x0FF) ∨ (0x8F8 ≤ off ∧ off ≤ 0x8FF) ∨
      (0x940 ≤ off ∧ off ≤ 0xFFF) → s.regval off = 0)

/-- 20_memory.md R62, R63: the blocks of the timers and of the channels; the blocks that the configuration does not have,
and those of channels not created, read 0. -/
def Obligations.BlocksShowTimersAndChannels : Prop :=
  (∀ (s : State) (t : Nat), s.cfg.wf → t < 8 →
    (t < s.cfg.numTimers →
      s.regval (0x020 + 8 * t) = (s.timer t).tcnt ∧ s.regval (0x020 + 8 * t + 2) = (s.timer t).ocr ∧
      (s.regval (0x020 + 8 * t + 4)).toNat =
        (s.timer t).ocie.toNat + 2 * (s.timer t).ocf.toNat + 4 * (s.timer t).ovr.toNat + 8 * (s.timer t).trun.toNat +
          256 * (s.timer t).activeSlot.toNat ∧
      s.regval (0x020 + 8 * t + 6) = 0) ∧
    (s.cfg.numTimers ≤ t → ∀ r, r < 8 → s.regval (0x020 + 8 * t + r) = 0)) ∧
  (∀ (s : State) (i : Nat), s.cfg.wf → i < 255 →
    (i < s.cfg.maxChannels →
      (s.regval (0x100 + 8 * i)).toNat = (s.chan i).pin.toNat ∧
      (s.regval (0x100 + 8 * i + 2)).toNat = (s.chan i).isActive.toNat ∧
      s.regval (0x100 + 8 * i + 4) = (s.chan i).pulseTicks ∧
      (s.regval (0x100 + 8 * i + 6)).toNat = (s.chan i).minTrim.toNat + 256 * (s.chan i).maxTrim.toNat) ∧
    (s.cfg.maxChannels ≤ i → ∀ r, r < 8 → s.regval (0x100 + 8 * i + r) = 0) ∧
    (s.Inv → s.channelCount.toNat ≤ i → ∀ r, r < 8 → s.regval (0x100 + 8 * i + r) = 0))

/-- 20_memory.md R64: the GPIO words; bits of pins that do not exist read 0. -/
def Obligations.GpioWindowShowsTheLatches : Prop :=
  ∀ (s : State) (k j : Nat), k < 16 → j < 16 → s.mode.length = s.cfg.numPins → s.level.length = s.cfg.numPins →
    (s.regval (0x900 + 2 * k)).getLsbD j = s.modeOf (16 * k + j) ∧
    (s.regval (0x920 + 2 * k)).getLsbD j = s.levelOf (16 * k + j) ∧
    (s.cfg.numPins ≤ 16 * k + j →
      (s.regval (0x900 + 2 * k)).getLsbD j = false ∧ (s.regval (0x920 + 2 * k)).getLsbD j = false)

/-! ### The counters -/

/-- 42_scheduler.md R170 to R172: a tick of a running counter adds 1 modulo 2^16. A standing counter has no step; that a
TICK of it is the step that changes nothing is the model's own choice (log 5). When the new count equals OCR it sets OCF, whatever OCIE and GIE hold; if a match was pending and enabled it sets
OVR and records FLT_OVR with the timer, too. -/
def Obligations.TickCountsAndMatches : Prop :=
  ∀ (s : State) (t : Nat), t < s.cfg.numTimers → t < s.tm.length →
    ((s.timer t).trun = false → exec (.tick t) s = .next s) ∧
    ((s.timer t).trun = true → (s.timer t).tcnt + 1 ≠ (s.timer t).ocr →
      exec (.tick t) s = .next { s with tm := s.tm.set t { s.timer t with tcnt := (s.timer t).tcnt + 1 } }) ∧
    ((s.timer t).trun = true → (s.timer t).tcnt + 1 = (s.timer t).ocr →
      (s.timer t).ocf = false ∨ (s.timer t).ocie = false →
      exec (.tick t) s =
        .next { s with tm := s.tm.set t { s.timer t with tcnt := (s.timer t).tcnt + 1, ocf := true } }) ∧
    ((s.timer t).trun = true → (s.timer t).tcnt + 1 = (s.timer t).ocr →
      (s.timer t).ocf = true → (s.timer t).ocie = true →
      exec (.tick t) s =
        .next { s with
          tm := s.tm.set t { s.timer t with tcnt := (s.timer t).tcnt + 1, ocf := true, ovr := true }
          status := if s.status.extractLsb' 8 4 = 0 then s.status ||| 0x0510 else s.status ||| 0x0010
          finfo := if s.status.extractLsb' 8 4 = 0 then BitVec.ofNat 16 t else s.finfo })

/-- 42_scheduler.md R171, R172, R180, R181 by themselves: what COMPARE_MATCH, TIMER_INIT and TIMER_SHUTDOWN write; OVR
and the pins are kept by the last two. As instructions of their own they are the model's choice (log 17). -/
def Obligations.SubStepEffects : Prop :=
  ∀ (s : State) (t : Nat), t < s.cfg.numTimers →
    ((s.timer t).ocf = false ∨ (s.timer t).ocie = false →
      exec (.compareMatch t) s = .next { s with tm := s.tm.set t { s.timer t with ocf := true } }) ∧
    ((s.timer t).ocf = true → (s.timer t).ocie = true →
      exec (.compareMatch t) s =
        .next { s with
          tm := s.tm.set t { s.timer t with ovr := true }
          status := if s.status.extractLsb' 8 4 = 0 then s.status ||| 0x0510 else s.status ||| 0x0010
          finfo := if s.status.extractLsb' 8 4 = 0 then BitVec.ofNat 16 t else s.finfo }) ∧
    exec (.timerInit t) s =
      .next { s with
        tm := s.tm.set t
          { tcnt := 0, ocr := BitVec.ofNat 16 s.cfg.initCompare, ocie := true, ocf := false, ovr := (s.timer t).ovr,
            trun := true, activeSlot := 0xFF } } ∧
    exec (.timerShutdown t) s = .next { s with tm := s.tm.set t { s.timer t with ocie := false } }

/-- 42_scheduler.md R188: the next match of a running timer comes ((OCR - TCNT - 1) mod 2^16) + 1 ticks later, at no
earlier tick, and until then nothing but the count changes. -/
def Obligations.NextMatchDistance : Prop :=
  ∀ (s : State) (t n : Nat), t < s.cfg.numTimers → t < s.tm.length → (s.timer t).trun = true →
    n = ((s.timer t).ocr - (s.timer t).tcnt - 1).toNat + 1 →
    (∀ m, m < n →
      ticks t m s =
        .next { s with tm := s.tm.set t { s.timer t with tcnt := (s.timer t).tcnt + BitVec.ofNat 16 m } }) ∧
    (∃ s', ticks t n s = .next s' ∧ (s'.timer t).ocf = true ∧ (s'.timer t).tcnt = (s.timer t).ocr) ∧
    ((s.timer t).ocr = (s.timer t).tcnt → n = 65536)

/-- Where an event stops, the model's choices: an event of a timer that the configuration does not have is refused
(00_scope.md R4; log 6), and a service at an activeSlot that no rule stores faults (10_state.md R34; log 11). -/
def Obligations.EventsStopOffTheConfiguration : Prop :=
  ∀ (s : State) (t : Nat),
    (s.cfg.numTimers ≤ t →
      exec (.tick t) s = .refused .noSuchTimer ∧ exec (.service t) s = .refused .noSuchTimer ∧
      exec (.compareMatch t) s = .refused .noSuchTimer ∧ exec (.timerInit t) s = .refused .noSuchTimer ∧
      exec (.timerShutdown t) s = .refused .noSuchTimer) ∧
    (t < s.cfg.numTimers → serviceEnabled (s.timer t) s.gie = true →
      ((s.timer t).activeSlot.toInt < -1 ∨ (s.cfg.channelsPerTimer : Int) ≤ (s.timer t).activeSlot.toInt) →
      exec (.service t) s = .fault .activeSlotOutOfRange)

/-! ### The sequencers -/

/-- 42_scheduler.md R173: with OCF, OCIE or GIE at 0 the sequencer has no step. That a SERVICE then is the step that
changes nothing is the model's own choice (log 5). -/
def Obligations.ServiceNeedsAllThreeEnables : Prop :=
  ∀ (s : State) (t : Nat), t < s.cfg.numTimers →
    ((s.timer t).ocf = false ∨ (s.timer t).ocie = false ∨ s.gie = false) → exec (.service t) s = .next s

/-- A service in REFRESH_WAIT that finds slot 0 starts a frame: the count restarts at 0, the first match is the slot's
width later, and an active channel's pin goes high (42_scheduler.md R174, R175, R178). -/
def Obligations.ServiceStartsTheFrame : Prop :=
  ∀ (s : State) (t : Nat) (c : Channel), t < s.cfg.numTimers → (s.timer t).ocf = true → (s.timer t).ocie = true →
    s.gie = true → (s.timer t).activeSlot = 0xFF → 0 < s.cfg.channelsPerTimer →
    t * s.cfg.channelsPerTimer < s.channelCount.toNat → c = s.chan (t * s.cfg.channelsPerTimer) →
    exec (.service t) s =
      .next { s with
        tm := s.tm.set t { s.timer t with ocf := false, tcnt := 0, ocr := c.pulseTicks, activeSlot := 0 }
        level := if c.isActive then s.level.set c.pin.toNat true else s.level }

/-- A service in DRIVING(k) with a next slot ends the pulse of slot k and then starts that of slot k + 1, at
TCNT + pulseTicks modulo 2^16; an inactive channel's slot is scheduled and its pin not driven (42_scheduler.md R174, R176,
R178, R182). -/
def Obligations.ServiceMovesToTheNextSlot : Prop :=
  ∀ (s : State) (t k i j : Nat), t < s.cfg.numTimers → s.cfg.channelsPerTimer ≤ 127 →
    (s.timer t).ocf = true → (s.timer t).ocie = true → s.gie = true → (s.timer t).activeSlot = BitVec.ofNat 8 k →
    k + 1 < s.cfg.channelsPerTimer → i = t * s.cfg.channelsPerTimer + k → j = i + 1 → j < s.channelCount.toNat →
    exec (.service t) s =
      .next { s with
        tm := s.tm.set t
          { s.timer t with
            ocf := false, ocr := (s.timer t).tcnt + (s.chan j).pulseTicks, activeSlot := BitVec.ofNat 8 (k + 1) }
        level :=
          (fun lowered => if (s.chan j).isActive then lowered.set (s.chan j).pin.toNat true else lowered)
            (if (s.chan i).isActive then s.level.set (s.chan i).pin.toNat false else s.level) }

/-- A service with no next slot ends the pulse of the slot it stands at, if any, and enters the refresh tail: OCR is
TICKS_PER_FRAME if TCNT + SAFETY_MARGIN_TICKS is less, on integers, and else TCNT + SAFETY_MARGIN_TICKS modulo 2^16
(42_scheduler.md R174, R176, R179). -/
def Obligations.ServiceEntersTheRefreshTail : Prop :=
  ∀ (s : State) (t now frame : Nat) (k : Int), t < s.cfg.numTimers → 1 ≤ s.cfg.prescale →
    (s.timer t).ocf = true → (s.timer t).ocie = true → s.gie = true → (s.timer t).activeSlot.toInt = k → -1 ≤ k →
    k < s.cfg.channelsPerTimer →
    ¬ (k + 1 < s.cfg.channelsPerTimer ∧ t * s.cfg.channelsPerTimer + (k + 1) < s.channelCount.toNat) →
    now = (if k < 0 then 0 else (s.timer t).tcnt.toNat) →
    frame = s.cfg.refreshInterval * s.cfg.cycPerUs / s.cfg.prescale →
    exec (.service t) s =
      .next { s with
        tm := s.tm.set t
          { s.timer t with
            ocf := false, tcnt := BitVec.ofNat 16 now, activeSlot := 0xFF,
            ocr := BitVec.ofNat 16
              (if now + s.cfg.safetyMarginTicks < frame then frame else now + s.cfg.safetyMarginTicks) }
        level :=
          if 0 ≤ k ∧ t * s.cfg.channelsPerTimer + k.toNat < s.channelCount.toNat ∧
              (s.chan (t * s.cfg.channelsPerTimer + k.toNat)).isActive = true then
            s.level.set (s.chan (t * s.cfg.channelsPerTimer + k.toNat)).pin.toNat false
          else s.level }

/-- 60_exceptions.md R212, R215, 40_host_port.md R103: an event saves nothing and touches no register of the host, the
registry or the command in progress; a service records nothing and writes OCF, TCNT, OCR and activeSlot of its own timer
and the levels of the pins of its own active channels; a tick drives no pin. -/
def Obligations.EventsLeaveTheRegistryAlone : Prop :=
  ∀ (s s' : State) (t : Nat),
    (exec (.service t) s = .next s' ∨ exec (.tick t) s = .next s' →
      s'.ch = s.ch ∧ s'.channelCount = s.channelCount ∧ s'.mode = s.mode ∧ s'.gie = s.gie ∧ s'.arg0 = s.arg0 ∧
      s'.arg1 = s.arg1 ∧ s'.arg2 = s.arg2 ∧ s'.result = s.result ∧ s'.cu = s.cu ∧ s'.cfg = s.cfg ∧
      s'.pending = s.pending ∧ s'.readData = s.readData ∧ (∀ u, u ≠ t → s'.timer u = s.timer u) ∧
      (s'.timer t).ocie = (s.timer t).ocie ∧ (s'.timer t).trun = (s.timer t).trun) ∧
    (exec (.service t) s = .next s' →
      s'.status = s.status ∧ s'.finfo = s.finfo ∧ (s'.timer t).ovr = (s.timer t).ovr ∧
      ∀ p, (∀ k, k < s.cfg.channelsPerTimer → (s.chan (t * s.cfg.channelsPerTimer + k)).isActive = true →
        (s.chan (t * s.cfg.channelsPerTimer + k)).pin.toNat ≠ p) → s'.levelOf p = s.levelOf p) ∧
    (exec (.tick t) s = .next s' →
      s'.level = s.level ∧ (s'.timer t).ocr = (s.timer t).ocr ∧ (s'.timer t).activeSlot = (s.timer t).activeSlot)

/-- 42_scheduler.md R189: what a service of timer t writes into its timer depends only on that timer, its own channels,
channelCount, GIE and the configuration, and it leaves every other timer alone. -/
def Obligations.TimersAreIndependent : Prop :=
  ∀ (s1 s2 s1' s2' : State) (t : Nat), s1.cfg = s2.cfg → s1.channelCount = s2.channelCount → s1.gie = s2.gie →
    s1.timer t = s2.timer t → t < s1.tm.length → t < s2.tm.length →
    (∀ k, k < s1.cfg.channelsPerTimer → s1.chan (s1.channelAt t k) = s2.chan (s2.channelAt t k)) →
    exec (.service t) s1 = .next s1' → exec (.service t) s2 = .next s2' →
    s1'.timer t = s2'.timer t ∧ ∀ u, u ≠ t → s1'.timer u = s1.timer u

/-- 42_scheduler.md R186: pulseTicks is read only when a pulse starts, so a service that does not start channel i's slot
does the same whatever width a write has stored for it. -/
def Obligations.WidthsAreReadAtThePulseStart : Prop :=
  ∀ (s s' : State) (t i : Nat) (w : Word),
    s.channelAt t ((s.timer t).activeSlot.toInt + 1).toNat ≠ i → exec (.service t) s = .next s' →
    exec (.service t) { s with ch := s.ch.set i { s.chan i with pulseTicks := w } } =
      .next { s' with ch := s.ch.set i { s.chan i with pulseTicks := w } }

/-- 42_scheduler.md R183, for two kinds of steps, a service of the timer itself and a tick of any timer: while the active
channels of a timer have distinct pins, they keep the property that only the slot it stands at has its pin high, so no two
of those pins are high at once. -/
def Obligations.ServiceKeepsOnePinHigh : Prop :=
  ∀ (s s' : State) (t u : Nat), s.Inv → t < s.cfg.numTimers → s.DistinctPins t → s.OnlySlotHigh t →
    exec (.service t) s = .next s' ∨ exec (.tick u) s = .next s' →
    s'.OnlySlotHigh t ∧
    ∀ i j, i < s'.channelCount.toNat → j < s'.channelCount.toNat → s'.timerOf i = t → s'.timerOf j = t →
      (s'.chan i).isActive = true → (s'.chan j).isActive = true → s'.levelOf (s'.chan i).pin.toNat = true →
      s'.levelOf (s'.chan j).pin.toNat = true → i = j

/-- 42_scheduler.md R184: a pulse of P >= 1 ticks whose ending service is taken L ticks after its match, with no overrun
between (L < 65536), is high for exactly P + L ticks: the pin is high from the starting service on, the match comes at the
P-th tick and no earlier, no overrun comes, and the ending service takes the pin low, unless the slot it starts drives the
same pin. Said twice: for a run of ticks of the timer alone, which there always is, and for any run in which the other
agents' steps leave the timer alone and the channel active on its pin at its level. -/
def Obligations.PulseLastsWidthPlusLatency : Prop :=
  ∀ (s s1 : State) (t k i P L : Nat), s.Inv → t < s.cfg.numTimers →
    serviceEnabled (s.timer t) s.gie = true → k = ((s.timer t).activeSlot.toInt + 1).toNat → s.slotExists t k →
    i = s.channelAt t k → (s.chan i).isActive = true → P = (s.chan i).pulseTicks.toNat → 1 ≤ P → L < 65536 →
    exec (.service t) s = .next s1 →
    (∀ m, m ≤ P + L →
      ∃ sm : State, ticks t m s1 = .next sm ∧ sm.levelOf (s.chan i).pin.toNat = true ∧ sm.status = s1.status ∧
        ((sm.timer t).ocf = true ↔ P ≤ m)) ∧
    (∃ s2 s3 : State, ticks t (P + L) s1 = .next s2 ∧ exec (.service t) s2 = .next s3 ∧
      ((s.slotExists t (k + 1) → (s.chan (i + 1)).isActive = true → (s.chan (i + 1)).pin ≠ (s.chan i).pin) →
        s3.levelOf (s.chan i).pin.toNat = false)) ∧
    ∀ (m : Nat) (sm : State), Elapsed (fun a b => a.KeepsPulse t i b) t m s1 sm → m ≤ P + L →
      sm.levelOf (s.chan i).pin.toNat = true ∧ (sm.timer t).ovr = (s1.timer t).ovr ∧
      ((sm.timer t).ocf = true ↔ P ≤ m) ∧
      (m = P + L → sm.gie = true →
        ∃ s3 : State, exec (.service t) sm = .next s3 ∧
          ((sm.slotExists t (k + 1) → (sm.chan (i + 1)).isActive = true → (sm.chan (i + 1)).pin ≠ (s.chan i).pin) →
            s3.levelOf (s.chan i).pin.toNat = false))

/-- 42_scheduler.md R185: from the service that reaches the refresh tail at count e, the match that starts the next frame
comes TICKS_PER_FRAME - e ticks later if the margin fits, and else SAFETY_MARGIN_TICKS later; the service taken then, or
any ticks later, restarts the count at 0. Said twice: for a run of ticks of the timer alone, which there always is, and
for any run in which the other agents' steps leave the timer alone. -/
def Obligations.RefreshTailFillsTheFrame : Prop :=
  ∀ (s s1 : State) (t e frame n : Nat), s.Inv → t < s.cfg.numTimers → serviceEnabled (s.timer t) s.gie = true →
    ¬ s.slotExists t ((s.timer t).activeSlot.toInt + 1).toNat → exec (.service t) s = .next s1 →
    e = (s1.timer t).tcnt.toNat → frame = s.cfg.refreshInterval * s.cfg.cycPerUs / s.cfg.prescale →
    n = (if e + s.cfg.safetyMarginTicks < frame then frame - e else s.cfg.safetyMarginTicks) →
    (∀ m, m < n → ∃ sm : State, ticks t m s1 = .next sm ∧ (sm.timer t).ocf = false) ∧
    (∃ s2 s3 : State, ticks t n s1 = .next s2 ∧ (s2.timer t).ocf = true ∧ exec (.service t) s2 = .next s3 ∧
      (s3.timer t).tcnt = 0) ∧
    ∀ (m : Nat) (sm : State), Elapsed (fun a b => a.KeepsTimer t b) t m s1 sm →
      ((sm.timer t).ocf = true ↔ n ≤ m) ∧
      (n ≤ m → sm.gie = true → ∃ s3 : State, exec (.service t) sm = .next s3 ∧ (s3.timer t).tcnt = 0)

/-- 42_scheduler.md R187: an enabled timer has no final state: while GIE = 1, at most 65536 ticks bring a state in which
its service is enabled, and the service taken there leaves the timer enabled with no match pending. -/
def Obligations.EnabledTimerIsServedAgain : Prop :=
  ∀ (s : State) (t : Nat), s.Inv → t < s.cfg.numTimers → (s.timer t).ocie = true → s.gie = true →
    ∃ (n : Nat) (s1 s2 : State), n ≤ 65536 ∧ ticks t n s = .next s1 ∧ serviceEnabled (s1.timer t) s1.gie = true ∧
      exec (.service t) s1 = .next s2 ∧ (s2.timer t).ocf = false ∧ (s2.timer t).ocie = true

/-! ### The pins -/

/-- 10_state.md R36: PIN_OUT is the level of an output pin and Z, here none, of an input; setPinState sets the latch
whatever MODE holds, and that latch alone; only a service's step changes a level; the levels are 0 after reset. So an
active channel's pin is never Z. -/
def Obligations.PinOutShowsTheLevelOfAnOutput : Prop :=
  (∀ (s : State) (p : Nat), (s.modeOf p = true → s.pinOut p = some (s.levelOf p)) ∧
    (s.modeOf p = false → s.pinOut p = none)) ∧
  (∀ (s : State) (p q : Nat) (high : Bool), p < s.level.length →
    (s.setLevel p high).levelOf q = if q = p then high else s.levelOf q) ∧
  (∀ s s' : State, step s = .next s' → s'.level ≠ s.level → ∃ t rest, s.pending = .service t :: rest) ∧
  (∀ (cfg : Config) (p : Nat), (State.resetOf cfg).levelOf p = false) ∧
  (∀ (s : State) (i : Nat), s.Inv → i < s.cfg.maxChannels → (s.chan i).isActive = true →
    s.pinOut (s.chan i).pin.toNat = some (s.levelOf (s.chan i).pin.toNat))

/-- 42_scheduler.md R183, for every step of every agent: ticks and services of any timer, host accesses and micro-steps of
commands. The premises: the active channels of timer t have distinct pins, which no active channel of another timer has
(42_scheduler.md R189 names the shared latch); and a pin that a channel of t takes up in this step, by becoming active or
by a re-ATTACH of an active channel, is low, as R183 assumes of the pins at the start. Then only the slot that timer t
stands at keeps its pin high, so no two pins of active channels of t are high at once. -/
def Obligations.EveryStepKeepsOnePinHigh : Prop :=
  ∀ (s s' : State) (t : Nat), s.Inv → t < s.cfg.numTimers → s.DistinctPins t → s.OnlySlotHigh t →
    (∀ i j, i < s.channelCount.toNat → j < s.channelCount.toNat → s.timerOf i = t → s.timerOf j ≠ t →
      (s.chan i).isActive = true → (s.chan j).isActive = true → (s.chan i).pin ≠ (s.chan j).pin) →
    (∀ i, i < s'.channelCount.toNat → s'.timerOf i = t → (s'.chan i).isActive = true →
      (s.chan i).isActive = false ∨ (s.chan i).pin ≠ (s'.chan i).pin → s.levelOf (s'.chan i).pin.toNat = false) →
    step s = .next s' →
    s'.OnlySlotHigh t ∧
    ∀ i j, i < s'.channelCount.toNat → j < s'.channelCount.toNat → s'.timerOf i = t → s'.timerOf j = t →
      (s'.chan i).isActive = true → (s'.chan j).isActive = true → s'.levelOf (s'.chan i).pin.toNat = true →
      s'.levelOf (s'.chan j).pin.toNat = true → i = j
end

