-- ==== Sys2Proof/Laws/Arith.lean ====
section
/-! SUPPORT. The integer arithmetic of the registry on plain numbers, and the STATUS record. -/

namespace Sys2Proof.Machine

theorem divT_of_ne {a b : Int} (h : b ≠ 0) : divT a b = Int.tdiv a b := by simp [divT, h]

theorem divT_of_nonneg {a b : Int} (ha : 0 ≤ a) (hb : 0 < b) : divT a b = a / b := by
  rw [divT_of_ne (by omega), Int.tdiv_eq_ediv_of_nonneg ha]

/-- On a width that is not negative, usToTicks is the truncated quotient (R121). -/
theorem usToTicks_natCast {cfg : Config} (h : 1 ≤ cfg.prescale) (u : Nat) :
    usToTicks cfg u = ((u * cfg.cycPerUs / cfg.prescale : Nat) : Int) := by
  unfold usToTicks
  rw [divT_of_nonneg (by positivity) (by omega)]
  push_cast
  rfl

theorem usToTicks_of_nonneg {cfg : Config} (h : 1 ≤ cfg.prescale) {u : Int} (hu : 0 ≤ u) :
    usToTicks cfg u = ((u.toNat * cfg.cycPerUs / cfg.prescale : Nat) : Int) := by
  rw [← usToTicks_natCast h, Int.toNat_of_nonneg hu]

/-- ticksToUs is the truncated quotient (R122). -/
theorem ticksToUs_natCast {cfg : Config} (h : 1 ≤ cfg.cycPerUs) (k : Nat) :
    ticksToUs cfg k = ((k * cfg.prescale / cfg.cycPerUs : Nat) : Int) := by
  unfold ticksToUs
  rw [divT_of_nonneg (by positivity) (by omega)]
  push_cast
  rfl

theorem ticksPerFrame_eq {cfg : Config} (h : 1 ≤ cfg.prescale) :
    ticksPerFrame cfg = ((cfg.refreshInterval * cfg.cycPerUs / cfg.prescale : Nat) : Int) :=
  usToTicks_natCast h _

/-- A longer width has at least as many ticks. -/
theorem usToTicks_mono {cfg : Config} (h : 1 ≤ cfg.prescale) {u v : Int} (hu : 0 ≤ u) (huv : u ≤ v) :
    usToTicks cfg u ≤ usToTicks cfg v := by
  rw [usToTicks_of_nonneg h hu, usToTicks_of_nonneg h (by omega)]
  exact_mod_cast Nat.div_le_div_right (Nat.mul_le_mul_right _ (by omega))

/-- Storing a value that is not negative is storing the natural number it is. -/
theorem ofInt_of_nonneg {n : Nat} {a : Int} (h : 0 ≤ a) : BitVec.ofInt n a = BitVec.ofNat n a.toNat := by
  conv_lhs => rw [← Int.toNat_of_nonneg h]
  exact BitVec.ofInt_natCast n _

theorem clampTo_of_le {lo hi v : Int} (h : lo < hi) : lo ≤ clampTo lo hi v ∧ clampTo lo hi v ≤ hi := by
  unfold clampTo; omega

theorem degToUsIn_eq {lo hi d : Int} (h : lo < hi) :
    degToUsIn lo hi d = lo + min (max d 0) 180 * (hi - lo) / 180 := by
  unfold degToUsIn
  rw [divT_of_nonneg (mul_nonneg (by omega) (by omega)) (by norm_num)]

/-- Mapped degrees lie in the envelope (R127). -/
theorem degToUsIn_mem {lo hi d : Int} (h : lo < hi) : lo ≤ degToUsIn lo hi d ∧ degToUsIn lo hi d ≤ hi := by
  rw [degToUsIn_eq h]
  have hd : 0 ≤ min (max d 0) 180 ∧ min (max d 0) 180 ≤ 180 := by omega
  generalize min (max d 0) 180 = e at hd
  have h0 : 0 ≤ e * (hi - lo) := mul_nonneg hd.1 (by omega)
  have h1 : e * (hi - lo) ≤ 180 * (hi - lo) := mul_le_mul_of_nonneg_right hd.2 (by omega)
  omega

/-- Under a legal calibration every clamped width less TRIM_DURATION is not negative and fits 16 bits as ticks
(R135 corner case 2). -/
theorem storedWidth_fits {cfg : Config} (hp : 1 ≤ cfg.prescale) {mt xt v : Int} (h : calOK cfg mt xt) :
    0 ≤ clampTo (envelopeLow cfg mt) (envelopeHigh cfg xt) v - cfg.trimDuration ∧
      0 ≤ usToTicks cfg (clampTo (envelopeLow cfg mt) (envelopeHigh cfg xt) v - cfg.trimDuration) ∧
      usToTicks cfg (clampTo (envelopeLow cfg mt) (envelopeHigh cfg xt) v - cfg.trimDuration) ≤ 0xFFFF := by
  obtain ⟨-, hlt, hlo, hhi⟩ := h
  have hc := clampTo_of_le (v := v) hlt
  have h0 : 0 ≤ clampTo (envelopeLow cfg mt) (envelopeHigh cfg xt) v - cfg.trimDuration := by omega
  refine ⟨h0, ?_, (usToTicks_mono hp h0 (by omega)).trans hhi⟩
  rw [usToTicks_of_nonneg hp h0]
  exact Int.natCast_nonneg _

/-! ### The STATUS record -/

theorem FaultCode.number_mem (code : FaultCode) : 1 ≤ code.number ∧ code.number ≤ 5 := by cases code <;> decide

theorem recordStatus_first_kept (code : FaultCode) {status : Word} (h : statusFirst status ≠ 0) :
    recordStatus code status = status ||| BitVec.twoPow 16 code.bitOf := if_neg h

theorem recordStatus_first_taken (code : FaultCode) {status : Word} (h : statusFirst status = 0) :
    recordStatus code status =
      (status ||| BitVec.twoPow 16 code.bitOf) ||| (BitVec.ofNat 16 code.number <<< 8) := if_pos h

/-- The record of a code, as the bits it sets in STATUS: the code's own bit, and FIRST with the first record (the table of
60_exceptions.md R201). -/
theorem recordStatus_eq (code : FaultCode) (status : Word) :
    recordStatus code status =
      if statusFirst status = 0 then status ||| BitVec.ofNat 16 (256 * code.number + 2 ^ (code.number - 1))
      else status ||| BitVec.ofNat 16 (2 ^ (code.number - 1)) := by
  unfold recordStatus
  split
  · rw [BitVec.or_assoc]; cases code <;> rfl
  · cases code <;> rfl

/-- A record clears no STATUS bit (R207: sticky). -/
theorem recordStatus_sticky (code : FaultCode) (status : Word) (j : Nat) (h : status.getLsbD j = true) :
    (recordStatus code status).getLsbD j = true := by
  unfold recordStatus
  split <;> simp [h]

/-- A record keeps the first code (R207). -/
theorem statusFirst_recordStatus (code : FaultCode) (status : Word) :
    statusFirst (recordStatus code status) =
      if statusFirst status = 0 then BitVec.ofNat 4 code.number else statusFirst status := by
  unfold recordStatus
  split
  · rename_i h
    ext i hi
    have hz : status.getLsbD (8 + i) = false := by
      have := congrArg (fun v => v.getLsbD i) h
      simpa [statusFirst, hi] using this
    have hi' : i = 0 ∨ i = 1 ∨ i = 2 ∨ i = 3 := by omega
    cases code <;> rcases hi' with rfl | rfl | rfl | rfl <;>
      simp_all [statusFirst, FaultCode.number, FaultCode.bitOf]
  · ext i hi
    have hi' : i = 0 ∨ i = 1 ∨ i = 2 ∨ i = 3 := by omega
    cases code <;> rcases hi' with rfl | rfl | rfl | rfl <;>
      simp [statusFirst, FaultCode.number, FaultCode.bitOf]

end Sys2Proof.Machine
end

