-- ==== Sys2Proof/Laws/Encoding.lean ====
section
/-! SUPPORT. The fields of a command word as numbers, the words of the encoder, and which instructions have one. -/

namespace Sys2Proof

theorem opField_toNat (c : Word) : (opField c).toNat = c.toNat / 4096 := by
  have := c.isLt
  simp [opField, BitVec.extractLsb'_toNat, Nat.shiftRight_eq_div_pow]
  omega

theorem rsvField_toNat (c : Word) : (rsvField c).toNat = c.toNat / 512 % 8 := by
  simp [rsvField, BitVec.extractLsb'_toNat, Nat.shiftRight_eq_div_pow]

theorem idField_toNat (c : Word) : (idField c).toNat = c.toNat % 256 := by
  simp [idField, BitVec.extractLsb'_toNat]

theorem xField_eq (c : Word) : xField c = (c.toNat / 256 % 2 == 1) := by
  simp only [xField, BitVec.getLsbD, Nat.testBit, Nat.shiftRight_eq_div_pow]
  rw [Nat.and_comm, Nat.and_one_is_mod]
  rcases Nat.mod_two_eq_zero_or_one (c.toNat / 2 ^ 8) with h | h <;> simp [h] at h ⊢

/-- A command word as a number (30_encoding.md R80, R92). -/
theorem commandWord_toNat (op : BitVec 4) (x : Bool) (id : ChannelId) :
    (commandWord op x id).toNat = 4096 * op.toNat + 256 * x.toNat + id.toNat := by
  have hid : id.toNat < 256 := id.isLt
  have hx : (BitVec.ofBool x).toNat = x.toNat := by cases x <;> rfl
  have hx2 : x.toNat < 2 := by cases x <;> decide
  unfold commandWord
  rw [BitVec.toNat_append, BitVec.toNat_append, BitVec.toNat_append, hx,
    ← Nat.shiftLeft_add_eq_or_of_lt hid, ← Nat.shiftLeft_add_eq_or_of_lt (by simpa using hx2),
    ← Nat.shiftLeft_add_eq_or_of_lt (by simp)]
  simp only [Nat.shiftLeft_eq, BitVec.toNat_ofNat]
  omega

theorem commandWord_eq (op : BitVec 4) (x : Bool) (id : ChannelId) :
    commandWord op x id = BitVec.ofNat 16 (4096 * op.toNat + 256 * x.toNat + id.toNat) := by
  rw [← commandWord_toNat, BitVec.ofNat_toNat, BitVec.setWidth_eq]

/-- The fields of a command word are the ones it was made of. -/
theorem fields_commandWord (op : BitVec 4) (x : Bool) (id : ChannelId) :
    opField (commandWord op x id) = op ∧ rsvField (commandWord op x id) = 0 ∧ xField (commandWord op x id) = x ∧
      idField (commandWord op x id) = id := by
  have hid := id.isLt
  have hop := op.isLt
  refine ⟨?_, ?_, ?_, ?_⟩
  · apply BitVec.eq_of_toNat_eq
    rw [opField_toNat, commandWord_toNat]
    cases x <;> simp <;> omega
  · apply BitVec.eq_of_toNat_eq
    rw [rsvField_toNat, commandWord_toNat]
    cases x <;> simp <;> omega
  · rw [xField_eq, commandWord_toNat]
    cases x <;> simp <;> omega
  · apply BitVec.eq_of_toNat_eq
    rw [idField_toNat, commandWord_toNat]
    cases x <;> simp <;> omega

/-- A word with RSV zero is the command word of its fields. -/
theorem commandWord_fields {c : Word} (h : rsvField c = 0) : commandWord (opField c) (xField c) (idField c) = c := by
  apply BitVec.eq_of_toNat_eq
  rw [commandWord_toNat, opField_toNat, idField_toNat, xField_eq]
  have h3 : c.toNat / 512 % 8 = 0 := by rw [← rsvField_toNat, h]; rfl
  have := c.isLt
  rcases Nat.mod_two_eq_zero_or_one (c.toNat / 256) with h2 | h2 <;> simp [h2] <;> omega

namespace Machine

@[simp] theorem wordOf_create : wordOf .create = 0x1000 := by decide
@[simp] theorem wordOf_nop : wordOf .nop = 0x0000 := by decide

theorem wordOf_attach (x : Bool) (id : ChannelId) :
    wordOf (.attach x id) = BitVec.ofNat 16 (0x2000 + 0x100 * x.toNat + id.toNat) := commandWord_eq 2 x id

theorem wordOf_detach (id : ChannelId) : wordOf (.detach id) = BitVec.ofNat 16 (0x3000 + id.toNat) := by
  have := commandWord_eq 3 false id
  simpa [wordOf, encode] using this

end Machine

end Sys2Proof
end

