-- ==== Sys2Proof/Laws/State.lean ====
section
/-! SUPPORT. What each state update does to each field and each accessor, by rfl, for simp. -/

namespace Sys2Proof.Machine.State

variable (s : State)

/-! ### setChan -/

@[simp] theorem setChan_ch (i : Nat) (c : Channel) : (s.setChan i c).ch = s.ch.set i c := rfl
@[simp] theorem setChan_channelCount (i : Nat) (c : Channel) : (s.setChan i c).channelCount = s.channelCount := rfl
@[simp] theorem setChan_tm (i : Nat) (c : Channel) : (s.setChan i c).tm = s.tm := rfl
@[simp] theorem setChan_mode (i : Nat) (c : Channel) : (s.setChan i c).mode = s.mode := rfl
@[simp] theorem setChan_level (i : Nat) (c : Channel) : (s.setChan i c).level = s.level := rfl
@[simp] theorem setChan_gie (i : Nat) (c : Channel) : (s.setChan i c).gie = s.gie := rfl
@[simp] theorem setChan_status (i : Nat) (c : Channel) : (s.setChan i c).status = s.status := rfl
@[simp] theorem setChan_finfo (i : Nat) (c : Channel) : (s.setChan i c).finfo = s.finfo := rfl
@[simp] theorem setChan_arg0 (i : Nat) (c : Channel) : (s.setChan i c).arg0 = s.arg0 := rfl
@[simp] theorem setChan_arg1 (i : Nat) (c : Channel) : (s.setChan i c).arg1 = s.arg1 := rfl
@[simp] theorem setChan_arg2 (i : Nat) (c : Channel) : (s.setChan i c).arg2 = s.arg2 := rfl
@[simp] theorem setChan_result (i : Nat) (c : Channel) : (s.setChan i c).result = s.result := rfl
@[simp] theorem setChan_cu (i : Nat) (c : Channel) : (s.setChan i c).cu = s.cu := rfl
@[simp] theorem setChan_cfg (i : Nat) (c : Channel) : (s.setChan i c).cfg = s.cfg := rfl
@[simp] theorem setChan_pending (i : Nat) (c : Channel) : (s.setChan i c).pending = s.pending := rfl
@[simp] theorem setChan_readData (i : Nat) (c : Channel) : (s.setChan i c).readData = s.readData := rfl
@[simp] theorem setChan_timer (i : Nat) (c : Channel) (u : Nat) : (s.setChan i c).timer u = s.timer u := rfl
@[simp] theorem setChan_modeOf (i : Nat) (c : Channel) (q : Nat) : (s.setChan i c).modeOf q = s.modeOf q := rfl
@[simp] theorem setChan_levelOf (i : Nat) (c : Channel) (q : Nat) : (s.setChan i c).levelOf q = s.levelOf q := rfl
@[simp] theorem setChan_timerOf (i : Nat) (c : Channel) (j : Nat) : (s.setChan i c).timerOf j = s.timerOf j := rfl
@[simp] theorem setChan_slotOf (i : Nat) (c : Channel) (j : Nat) : (s.setChan i c).slotOf j = s.slotOf j := rfl
@[simp] theorem setChan_channelAt (i : Nat) (c : Channel) (u j : Nat) : (s.setChan i c).channelAt u j = s.channelAt u j := rfl

/-! ### setTimer -/

@[simp] theorem setTimer_ch (t : Nat) (x : Timer) : (s.setTimer t x).ch = s.ch := rfl
@[simp] theorem setTimer_channelCount (t : Nat) (x : Timer) : (s.setTimer t x).channelCount = s.channelCount := rfl
@[simp] theorem setTimer_tm (t : Nat) (x : Timer) : (s.setTimer t x).tm = s.tm.set t x := rfl
@[simp] theorem setTimer_mode (t : Nat) (x : Timer) : (s.setTimer t x).mode = s.mode := rfl
@[simp] theorem setTimer_level (t : Nat) (x : Timer) : (s.setTimer t x).level = s.level := rfl
@[simp] theorem setTimer_gie (t : Nat) (x : Timer) : (s.setTimer t x).gie = s.gie := rfl
@[simp] theorem setTimer_status (t : Nat) (x : Timer) : (s.setTimer t x).status = s.status := rfl
@[simp] theorem setTimer_finfo (t : Nat) (x : Timer) : (s.setTimer t x).finfo = s.finfo := rfl
@[simp] theorem setTimer_arg0 (t : Nat) (x : Timer) : (s.setTimer t x).arg0 = s.arg0 := rfl
@[simp] theorem setTimer_arg1 (t : Nat) (x : Timer) : (s.setTimer t x).arg1 = s.arg1 := rfl
@[simp] theorem setTimer_arg2 (t : Nat) (x : Timer) : (s.setTimer t x).arg2 = s.arg2 := rfl
@[simp] theorem setTimer_result (t : Nat) (x : Timer) : (s.setTimer t x).result = s.result := rfl
@[simp] theorem setTimer_cu (t : Nat) (x : Timer) : (s.setTimer t x).cu = s.cu := rfl
@[simp] theorem setTimer_cfg (t : Nat) (x : Timer) : (s.setTimer t x).cfg = s.cfg := rfl
@[simp] theorem setTimer_pending (t : Nat) (x : Timer) : (s.setTimer t x).pending = s.pending := rfl
@[simp] theorem setTimer_readData (t : Nat) (x : Timer) : (s.setTimer t x).readData = s.readData := rfl
@[simp] theorem setTimer_chan (t : Nat) (x : Timer) (j : Nat) : (s.setTimer t x).chan j = s.chan j := rfl
@[simp] theorem setTimer_modeOf (t : Nat) (x : Timer) (q : Nat) : (s.setTimer t x).modeOf q = s.modeOf q := rfl
@[simp] theorem setTimer_levelOf (t : Nat) (x : Timer) (q : Nat) : (s.setTimer t x).levelOf q = s.levelOf q := rfl
@[simp] theorem setTimer_timerActive (t : Nat) (x : Timer) (u : Nat) : (s.setTimer t x).timerActive u = s.timerActive u := rfl
@[simp] theorem setTimer_timerOf (t : Nat) (x : Timer) (j : Nat) : (s.setTimer t x).timerOf j = s.timerOf j := rfl
@[simp] theorem setTimer_slotOf (t : Nat) (x : Timer) (j : Nat) : (s.setTimer t x).slotOf j = s.slotOf j := rfl
@[simp] theorem setTimer_channelAt (t : Nat) (x : Timer) (u j : Nat) : (s.setTimer t x).channelAt u j = s.channelAt u j := rfl

/-! ### setOutput -/

@[simp] theorem setOutput_ch (p : Nat) : (s.setOutput p).ch = s.ch := rfl
@[simp] theorem setOutput_channelCount (p : Nat) : (s.setOutput p).channelCount = s.channelCount := rfl
@[simp] theorem setOutput_tm (p : Nat) : (s.setOutput p).tm = s.tm := rfl
@[simp] theorem setOutput_mode (p : Nat) : (s.setOutput p).mode = s.mode.set p true := rfl
@[simp] theorem setOutput_level (p : Nat) : (s.setOutput p).level = s.level := rfl
@[simp] theorem setOutput_gie (p : Nat) : (s.setOutput p).gie = s.gie := rfl
@[simp] theorem setOutput_status (p : Nat) : (s.setOutput p).status = s.status := rfl
@[simp] theorem setOutput_finfo (p : Nat) : (s.setOutput p).finfo = s.finfo := rfl
@[simp] theorem setOutput_arg0 (p : Nat) : (s.setOutput p).arg0 = s.arg0 := rfl
@[simp] theorem setOutput_arg1 (p : Nat) : (s.setOutput p).arg1 = s.arg1 := rfl
@[simp] theorem setOutput_arg2 (p : Nat) : (s.setOutput p).arg2 = s.arg2 := rfl
@[simp] theorem setOutput_result (p : Nat) : (s.setOutput p).result = s.result := rfl
@[simp] theorem setOutput_cu (p : Nat) : (s.setOutput p).cu = s.cu := rfl
@[simp] theorem setOutput_cfg (p : Nat) : (s.setOutput p).cfg = s.cfg := rfl
@[simp] theorem setOutput_pending (p : Nat) : (s.setOutput p).pending = s.pending := rfl
@[simp] theorem setOutput_readData (p : Nat) : (s.setOutput p).readData = s.readData := rfl
@[simp] theorem setOutput_chan (p : Nat) (j : Nat) : (s.setOutput p).chan j = s.chan j := rfl
@[simp] theorem setOutput_timer (p : Nat) (u : Nat) : (s.setOutput p).timer u = s.timer u := rfl
@[simp] theorem setOutput_levelOf (p : Nat) (q : Nat) : (s.setOutput p).levelOf q = s.levelOf q := rfl
@[simp] theorem setOutput_timerActive (p : Nat) (u : Nat) : (s.setOutput p).timerActive u = s.timerActive u := rfl
@[simp] theorem setOutput_timerOf (p : Nat) (j : Nat) : (s.setOutput p).timerOf j = s.timerOf j := rfl
@[simp] theorem setOutput_slotOf (p : Nat) (j : Nat) : (s.setOutput p).slotOf j = s.slotOf j := rfl
@[simp] theorem setOutput_channelAt (p : Nat) (u j : Nat) : (s.setOutput p).channelAt u j = s.channelAt u j := rfl

/-! ### setLevel -/

@[simp] theorem setLevel_ch (p : Nat) (b : Bool) : (s.setLevel p b).ch = s.ch := rfl
@[simp] theorem setLevel_channelCount (p : Nat) (b : Bool) : (s.setLevel p b).channelCount = s.channelCount := rfl
@[simp] theorem setLevel_tm (p : Nat) (b : Bool) : (s.setLevel p b).tm = s.tm := rfl
@[simp] theorem setLevel_mode (p : Nat) (b : Bool) : (s.setLevel p b).mode = s.mode := rfl
@[simp] theorem setLevel_level (p : Nat) (b : Bool) : (s.setLevel p b).level = s.level.set p b := rfl
@[simp] theorem setLevel_gie (p : Nat) (b : Bool) : (s.setLevel p b).gie = s.gie := rfl
@[simp] theorem setLevel_status (p : Nat) (b : Bool) : (s.setLevel p b).status = s.status := rfl
@[simp] theorem setLevel_finfo (p : Nat) (b : Bool) : (s.setLevel p b).finfo = s.finfo := rfl
@[simp] theorem setLevel_arg0 (p : Nat) (b : Bool) : (s.setLevel p b).arg0 = s.arg0 := rfl
@[simp] theorem setLevel_arg1 (p : Nat) (b : Bool) : (s.setLevel p b).arg1 = s.arg1 := rfl
@[simp] theorem setLevel_arg2 (p : Nat) (b : Bool) : (s.setLevel p b).arg2 = s.arg2 := rfl
@[simp] theorem setLevel_result (p : Nat) (b : Bool) : (s.setLevel p b).result = s.result := rfl
@[simp] theorem setLevel_cu (p : Nat) (b : Bool) : (s.setLevel p b).cu = s.cu := rfl
@[simp] theorem setLevel_cfg (p : Nat) (b : Bool) : (s.setLevel p b).cfg = s.cfg := rfl
@[simp] theorem setLevel_pending (p : Nat) (b : Bool) : (s.setLevel p b).pending = s.pending := rfl
@[simp] theorem setLevel_readData (p : Nat) (b : Bool) : (s.setLevel p b).readData = s.readData := rfl
@[simp] theorem setLevel_chan (p : Nat) (b : Bool) (j : Nat) : (s.setLevel p b).chan j = s.chan j := rfl
@[simp] theorem setLevel_timer (p : Nat) (b : Bool) (u : Nat) : (s.setLevel p b).timer u = s.timer u := rfl
@[simp] theorem setLevel_modeOf (p : Nat) (b : Bool) (q : Nat) : (s.setLevel p b).modeOf q = s.modeOf q := rfl
@[simp] theorem setLevel_timerActive (p : Nat) (b : Bool) (u : Nat) : (s.setLevel p b).timerActive u = s.timerActive u := rfl
@[simp] theorem setLevel_timerOf (p : Nat) (b : Bool) (j : Nat) : (s.setLevel p b).timerOf j = s.timerOf j := rfl
@[simp] theorem setLevel_slotOf (p : Nat) (b : Bool) (j : Nat) : (s.setLevel p b).slotOf j = s.slotOf j := rfl
@[simp] theorem setLevel_channelAt (p : Nat) (b : Bool) (u j : Nat) : (s.setLevel p b).channelAt u j = s.channelAt u j := rfl

/-! ### done -/

@[simp] theorem done_ch : (s.done).ch = s.ch := rfl
@[simp] theorem done_channelCount : (s.done).channelCount = s.channelCount := rfl
@[simp] theorem done_tm : (s.done).tm = s.tm := rfl
@[simp] theorem done_mode : (s.done).mode = s.mode := rfl
@[simp] theorem done_level : (s.done).level = s.level := rfl
@[simp] theorem done_gie : (s.done).gie = s.gie := rfl
@[simp] theorem done_status : (s.done).status = s.status := rfl
@[simp] theorem done_finfo : (s.done).finfo = s.finfo := rfl
@[simp] theorem done_arg0 : (s.done).arg0 = s.arg0 := rfl
@[simp] theorem done_arg1 : (s.done).arg1 = s.arg1 := rfl
@[simp] theorem done_arg2 : (s.done).arg2 = s.arg2 := rfl
@[simp] theorem done_result : (s.done).result = s.result := rfl
@[simp] theorem done_cu : (s.done).cu = .idle := rfl
@[simp] theorem done_cfg : (s.done).cfg = s.cfg := rfl
@[simp] theorem done_pending : (s.done).pending = s.pending := rfl
@[simp] theorem done_readData : (s.done).readData = s.readData := rfl
@[simp] theorem done_chan (j : Nat) : (s.done).chan j = s.chan j := rfl
@[simp] theorem done_timer (u : Nat) : (s.done).timer u = s.timer u := rfl
@[simp] theorem done_modeOf (q : Nat) : (s.done).modeOf q = s.modeOf q := rfl
@[simp] theorem done_levelOf (q : Nat) : (s.done).levelOf q = s.levelOf q := rfl
@[simp] theorem done_timerActive (u : Nat) : (s.done).timerActive u = s.timerActive u := rfl
@[simp] theorem done_timerOf (j : Nat) : (s.done).timerOf j = s.timerOf j := rfl
@[simp] theorem done_slotOf (j : Nat) : (s.done).slotOf j = s.slotOf j := rfl
@[simp] theorem done_channelAt (u j : Nat) : (s.done).channelAt u j = s.channelAt u j := rfl

/-! ### yieldAt -/

@[simp] theorem yieldAt_ch (w : Word) (k : Nat) (id : ChannelId) : (s.yieldAt w k id).ch = s.ch := rfl
@[simp] theorem yieldAt_channelCount (w : Word) (k : Nat) (id : ChannelId) : (s.yieldAt w k id).channelCount = s.channelCount := rfl
@[simp] theorem yieldAt_tm (w : Word) (k : Nat) (id : ChannelId) : (s.yieldAt w k id).tm = s.tm := rfl
@[simp] theorem yieldAt_mode (w : Word) (k : Nat) (id : ChannelId) : (s.yieldAt w k id).mode = s.mode := rfl
@[simp] theorem yieldAt_level (w : Word) (k : Nat) (id : ChannelId) : (s.yieldAt w k id).level = s.level := rfl
@[simp] theorem yieldAt_gie (w : Word) (k : Nat) (id : ChannelId) : (s.yieldAt w k id).gie = s.gie := rfl
@[simp] theorem yieldAt_status (w : Word) (k : Nat) (id : ChannelId) : (s.yieldAt w k id).status = s.status := rfl
@[simp] theorem yieldAt_finfo (w : Word) (k : Nat) (id : ChannelId) : (s.yieldAt w k id).finfo = s.finfo := rfl
@[simp] theorem yieldAt_arg0 (w : Word) (k : Nat) (id : ChannelId) : (s.yieldAt w k id).arg0 = s.arg0 := rfl
@[simp] theorem yieldAt_arg1 (w : Word) (k : Nat) (id : ChannelId) : (s.yieldAt w k id).arg1 = s.arg1 := rfl
@[simp] theorem yieldAt_arg2 (w : Word) (k : Nat) (id : ChannelId) : (s.yieldAt w k id).arg2 = s.arg2 := rfl
@[simp] theorem yieldAt_result (w : Word) (k : Nat) (id : ChannelId) : (s.yieldAt w k id).result = s.result := rfl
@[simp] theorem yieldAt_cu (w : Word) (k : Nat) (id : ChannelId) : (s.yieldAt w k id).cu = .busy w k id := rfl
@[simp] theorem yieldAt_cfg (w : Word) (k : Nat) (id : ChannelId) : (s.yieldAt w k id).cfg = s.cfg := rfl
@[simp] theorem yieldAt_pending (w : Word) (k : Nat) (id : ChannelId) : (s.yieldAt w k id).pending = s.pending := rfl
@[simp] theorem yieldAt_readData (w : Word) (k : Nat) (id : ChannelId) : (s.yieldAt w k id).readData = s.readData := rfl
@[simp] theorem yieldAt_chan (w : Word) (k : Nat) (id : ChannelId) (j : Nat) : (s.yieldAt w k id).chan j = s.chan j := rfl
@[simp] theorem yieldAt_timer (w : Word) (k : Nat) (id : ChannelId) (u : Nat) : (s.yieldAt w k id).timer u = s.timer u := rfl
@[simp] theorem yieldAt_modeOf (w : Word) (k : Nat) (id : ChannelId) (q : Nat) : (s.yieldAt w k id).modeOf q = s.modeOf q := rfl
@[simp] theorem yieldAt_levelOf (w : Word) (k : Nat) (id : ChannelId) (q : Nat) : (s.yieldAt w k id).levelOf q = s.levelOf q := rfl
@[simp] theorem yieldAt_timerActive (w : Word) (k : Nat) (id : ChannelId) (u : Nat) : (s.yieldAt w k id).timerActive u = s.timerActive u := rfl
@[simp] theorem yieldAt_timerOf (w : Word) (k : Nat) (id : ChannelId) (j : Nat) : (s.yieldAt w k id).timerOf j = s.timerOf j := rfl
@[simp] theorem yieldAt_slotOf (w : Word) (k : Nat) (id : ChannelId) (j : Nat) : (s.yieldAt w k id).slotOf j = s.slotOf j := rfl
@[simp] theorem yieldAt_channelAt (w : Word) (k : Nat) (id : ChannelId) (u j : Nat) : (s.yieldAt w k id).channelAt u j = s.channelAt u j := rfl

/-! ### setResult -/

@[simp] theorem setResult_ch (v : Word) : (s.setResult v).ch = s.ch := rfl
@[simp] theorem setResult_channelCount (v : Word) : (s.setResult v).channelCount = s.channelCount := rfl
@[simp] theorem setResult_tm (v : Word) : (s.setResult v).tm = s.tm := rfl
@[simp] theorem setResult_mode (v : Word) : (s.setResult v).mode = s.mode := rfl
@[simp] theorem setResult_level (v : Word) : (s.setResult v).level = s.level := rfl
@[simp] theorem setResult_gie (v : Word) : (s.setResult v).gie = s.gie := rfl
@[simp] theorem setResult_status (v : Word) : (s.setResult v).status = s.status := rfl
@[simp] theorem setResult_finfo (v : Word) : (s.setResult v).finfo = s.finfo := rfl
@[simp] theorem setResult_arg0 (v : Word) : (s.setResult v).arg0 = s.arg0 := rfl
@[simp] theorem setResult_arg1 (v : Word) : (s.setResult v).arg1 = s.arg1 := rfl
@[simp] theorem setResult_arg2 (v : Word) : (s.setResult v).arg2 = s.arg2 := rfl
@[simp] theorem setResult_result (v : Word) : (s.setResult v).result = v := rfl
@[simp] theorem setResult_cu (v : Word) : (s.setResult v).cu = s.cu := rfl
@[simp] theorem setResult_cfg (v : Word) : (s.setResult v).cfg = s.cfg := rfl
@[simp] theorem setResult_pending (v : Word) : (s.setResult v).pending = s.pending := rfl
@[simp] theorem setResult_readData (v : Word) : (s.setResult v).readData = s.readData := rfl
@[simp] theorem setResult_chan (v : Word) (j : Nat) : (s.setResult v).chan j = s.chan j := rfl
@[simp] theorem setResult_timer (v : Word) (u : Nat) : (s.setResult v).timer u = s.timer u := rfl
@[simp] theorem setResult_modeOf (v : Word) (q : Nat) : (s.setResult v).modeOf q = s.modeOf q := rfl
@[simp] theorem setResult_levelOf (v : Word) (q : Nat) : (s.setResult v).levelOf q = s.levelOf q := rfl
@[simp] theorem setResult_timerActive (v : Word) (u : Nat) : (s.setResult v).timerActive u = s.timerActive u := rfl
@[simp] theorem setResult_timerOf (v : Word) (j : Nat) : (s.setResult v).timerOf j = s.timerOf j := rfl
@[simp] theorem setResult_slotOf (v : Word) (j : Nat) : (s.setResult v).slotOf j = s.slotOf j := rfl
@[simp] theorem setResult_channelAt (v : Word) (u j : Nat) : (s.setResult v).channelAt u j = s.channelAt u j := rfl

/-! ### setReadData -/

@[simp] theorem setReadData_ch (v : Word) : (s.setReadData v).ch = s.ch := rfl
@[simp] theorem setReadData_channelCount (v : Word) : (s.setReadData v).channelCount = s.channelCount := rfl
@[simp] theorem setReadData_tm (v : Word) : (s.setReadData v).tm = s.tm := rfl
@[simp] theorem setReadData_mode (v : Word) : (s.setReadData v).mode = s.mode := rfl
@[simp] theorem setReadData_level (v : Word) : (s.setReadData v).level = s.level := rfl
@[simp] theorem setReadData_gie (v : Word) : (s.setReadData v).gie = s.gie := rfl
@[simp] theorem setReadData_status (v : Word) : (s.setReadData v).status = s.status := rfl
@[simp] theorem setReadData_finfo (v : Word) : (s.setReadData v).finfo = s.finfo := rfl
@[simp] theorem setReadData_arg0 (v : Word) : (s.setReadData v).arg0 = s.arg0 := rfl
@[simp] theorem setReadData_arg1 (v : Word) : (s.setReadData v).arg1 = s.arg1 := rfl
@[simp] theorem setReadData_arg2 (v : Word) : (s.setReadData v).arg2 = s.arg2 := rfl
@[simp] theorem setReadData_result (v : Word) : (s.setReadData v).result = s.result := rfl
@[simp] theorem setReadData_cu (v : Word) : (s.setReadData v).cu = s.cu := rfl
@[simp] theorem setReadData_cfg (v : Word) : (s.setReadData v).cfg = s.cfg := rfl
@[simp] theorem setReadData_pending (v : Word) : (s.setReadData v).pending = s.pending := rfl
@[simp] theorem setReadData_readData (v : Word) : (s.setReadData v).readData = v := rfl
@[simp] theorem setReadData_chan (v : Word) (j : Nat) : (s.setReadData v).chan j = s.chan j := rfl
@[simp] theorem setReadData_timer (v : Word) (u : Nat) : (s.setReadData v).timer u = s.timer u := rfl
@[simp] theorem setReadData_modeOf (v : Word) (q : Nat) : (s.setReadData v).modeOf q = s.modeOf q := rfl
@[simp] theorem setReadData_levelOf (v : Word) (q : Nat) : (s.setReadData v).levelOf q = s.levelOf q := rfl
@[simp] theorem setReadData_timerActive (v : Word) (u : Nat) : (s.setReadData v).timerActive u = s.timerActive u := rfl
@[simp] theorem setReadData_timerOf (v : Word) (j : Nat) : (s.setReadData v).timerOf j = s.timerOf j := rfl
@[simp] theorem setReadData_slotOf (v : Word) (j : Nat) : (s.setReadData v).slotOf j = s.slotOf j := rfl
@[simp] theorem setReadData_channelAt (v : Word) (u j : Nat) : (s.setReadData v).channelAt u j = s.channelAt u j := rfl

/-! ### raise -/

@[simp] theorem raise_ch (code : FaultCode) (info : Nat) : (s.raise code info).ch = s.ch := rfl
@[simp] theorem raise_channelCount (code : FaultCode) (info : Nat) : (s.raise code info).channelCount = s.channelCount := rfl
@[simp] theorem raise_tm (code : FaultCode) (info : Nat) : (s.raise code info).tm = s.tm := rfl
@[simp] theorem raise_mode (code : FaultCode) (info : Nat) : (s.raise code info).mode = s.mode := rfl
@[simp] theorem raise_level (code : FaultCode) (info : Nat) : (s.raise code info).level = s.level := rfl
@[simp] theorem raise_gie (code : FaultCode) (info : Nat) : (s.raise code info).gie = s.gie := rfl
@[simp] theorem raise_status (code : FaultCode) (info : Nat) : (s.raise code info).status = recordStatus code s.status := rfl
@[simp] theorem raise_finfo (code : FaultCode) (info : Nat) : (s.raise code info).finfo = recordInfo info s.status s.finfo := rfl
@[simp] theorem raise_arg0 (code : FaultCode) (info : Nat) : (s.raise code info).arg0 = s.arg0 := rfl
@[simp] theorem raise_arg1 (code : FaultCode) (info : Nat) : (s.raise code info).arg1 = s.arg1 := rfl
@[simp] theorem raise_arg2 (code : FaultCode) (info : Nat) : (s.raise code info).arg2 = s.arg2 := rfl
@[simp] theorem raise_result (code : FaultCode) (info : Nat) : (s.raise code info).result = s.result := rfl
@[simp] theorem raise_cu (code : FaultCode) (info : Nat) : (s.raise code info).cu = s.cu := rfl
@[simp] theorem raise_cfg (code : FaultCode) (info : Nat) : (s.raise code info).cfg = s.cfg := rfl
@[simp] theorem raise_pending (code : FaultCode) (info : Nat) : (s.raise code info).pending = s.pending := rfl
@[simp] theorem raise_readData (code : FaultCode) (info : Nat) : (s.raise code info).readData = s.readData := rfl
@[simp] theorem raise_chan (code : FaultCode) (info : Nat) (j : Nat) : (s.raise code info).chan j = s.chan j := rfl
@[simp] theorem raise_timer (code : FaultCode) (info : Nat) (u : Nat) : (s.raise code info).timer u = s.timer u := rfl
@[simp] theorem raise_modeOf (code : FaultCode) (info : Nat) (q : Nat) : (s.raise code info).modeOf q = s.modeOf q := rfl
@[simp] theorem raise_levelOf (code : FaultCode) (info : Nat) (q : Nat) : (s.raise code info).levelOf q = s.levelOf q := rfl
@[simp] theorem raise_timerActive (code : FaultCode) (info : Nat) (u : Nat) : (s.raise code info).timerActive u = s.timerActive u := rfl
@[simp] theorem raise_timerOf (code : FaultCode) (info : Nat) (j : Nat) : (s.raise code info).timerOf j = s.timerOf j := rfl
@[simp] theorem raise_slotOf (code : FaultCode) (info : Nat) (j : Nat) : (s.raise code info).slotOf j = s.slotOf j := rfl
@[simp] theorem raise_channelAt (code : FaultCode) (info : Nat) (u j : Nat) : (s.raise code info).channelAt u j = s.channelAt u j := rfl

/-! ### serviceEntry -/

@[simp] theorem serviceEntry_ch (t : Nat) : (s.serviceEntry t).ch = s.ch := rfl
@[simp] theorem serviceEntry_channelCount (t : Nat) : (s.serviceEntry t).channelCount = s.channelCount := rfl
@[simp] theorem serviceEntry_tm (t : Nat) : (s.serviceEntry t).tm = s.tm.set t { s.timer t with ocf := false } := rfl
@[simp] theorem serviceEntry_mode (t : Nat) : (s.serviceEntry t).mode = s.mode := rfl
@[simp] theorem serviceEntry_level (t : Nat) : (s.serviceEntry t).level = s.level := rfl
@[simp] theorem serviceEntry_gie (t : Nat) : (s.serviceEntry t).gie = s.gie := rfl
@[simp] theorem serviceEntry_status (t : Nat) : (s.serviceEntry t).status = s.status := rfl
@[simp] theorem serviceEntry_finfo (t : Nat) : (s.serviceEntry t).finfo = s.finfo := rfl
@[simp] theorem serviceEntry_arg0 (t : Nat) : (s.serviceEntry t).arg0 = s.arg0 := rfl
@[simp] theorem serviceEntry_arg1 (t : Nat) : (s.serviceEntry t).arg1 = s.arg1 := rfl
@[simp] theorem serviceEntry_arg2 (t : Nat) : (s.serviceEntry t).arg2 = s.arg2 := rfl
@[simp] theorem serviceEntry_result (t : Nat) : (s.serviceEntry t).result = s.result := rfl
@[simp] theorem serviceEntry_cu (t : Nat) : (s.serviceEntry t).cu = s.cu := rfl
@[simp] theorem serviceEntry_cfg (t : Nat) : (s.serviceEntry t).cfg = s.cfg := rfl
@[simp] theorem serviceEntry_pending (t : Nat) : (s.serviceEntry t).pending = s.pending := rfl
@[simp] theorem serviceEntry_readData (t : Nat) : (s.serviceEntry t).readData = s.readData := rfl
@[simp] theorem serviceEntry_chan (t : Nat) (j : Nat) : (s.serviceEntry t).chan j = s.chan j := rfl
@[simp] theorem serviceEntry_modeOf (t : Nat) (q : Nat) : (s.serviceEntry t).modeOf q = s.modeOf q := rfl
@[simp] theorem serviceEntry_levelOf (t : Nat) (q : Nat) : (s.serviceEntry t).levelOf q = s.levelOf q := rfl
@[simp] theorem serviceEntry_timerActive (t : Nat) (u : Nat) : (s.serviceEntry t).timerActive u = s.timerActive u := rfl
@[simp] theorem serviceEntry_timerOf (t : Nat) (j : Nat) : (s.serviceEntry t).timerOf j = s.timerOf j := rfl
@[simp] theorem serviceEntry_slotOf (t : Nat) (j : Nat) : (s.serviceEntry t).slotOf j = s.slotOf j := rfl
@[simp] theorem serviceEntry_channelAt (t : Nat) (u j : Nat) : (s.serviceEntry t).channelAt u j = s.channelAt u j := rfl

/-! ### serviceReturn -/

@[simp] theorem serviceReturn_ch : (s.serviceReturn).ch = s.ch := rfl
@[simp] theorem serviceReturn_channelCount : (s.serviceReturn).channelCount = s.channelCount := rfl
@[simp] theorem serviceReturn_tm : (s.serviceReturn).tm = s.tm := rfl
@[simp] theorem serviceReturn_mode : (s.serviceReturn).mode = s.mode := rfl
@[simp] theorem serviceReturn_level : (s.serviceReturn).level = s.level := rfl
@[simp] theorem serviceReturn_gie : (s.serviceReturn).gie = s.gie := rfl
@[simp] theorem serviceReturn_status : (s.serviceReturn).status = s.status := rfl
@[simp] theorem serviceReturn_finfo : (s.serviceReturn).finfo = s.finfo := rfl
@[simp] theorem serviceReturn_arg0 : (s.serviceReturn).arg0 = s.arg0 := rfl
@[simp] theorem serviceReturn_arg1 : (s.serviceReturn).arg1 = s.arg1 := rfl
@[simp] theorem serviceReturn_arg2 : (s.serviceReturn).arg2 = s.arg2 := rfl
@[simp] theorem serviceReturn_result : (s.serviceReturn).result = s.result := rfl
@[simp] theorem serviceReturn_cu : (s.serviceReturn).cu = s.cu := rfl
@[simp] theorem serviceReturn_cfg : (s.serviceReturn).cfg = s.cfg := rfl
@[simp] theorem serviceReturn_pending : (s.serviceReturn).pending = s.pending := rfl
@[simp] theorem serviceReturn_readData : (s.serviceReturn).readData = s.readData := rfl
@[simp] theorem serviceReturn_chan (j : Nat) : (s.serviceReturn).chan j = s.chan j := rfl
@[simp] theorem serviceReturn_timer (u : Nat) : (s.serviceReturn).timer u = s.timer u := rfl
@[simp] theorem serviceReturn_modeOf (q : Nat) : (s.serviceReturn).modeOf q = s.modeOf q := rfl
@[simp] theorem serviceReturn_levelOf (q : Nat) : (s.serviceReturn).levelOf q = s.levelOf q := rfl
@[simp] theorem serviceReturn_timerActive (u : Nat) : (s.serviceReturn).timerActive u = s.timerActive u := rfl
@[simp] theorem serviceReturn_timerOf (j : Nat) : (s.serviceReturn).timerOf j = s.timerOf j := rfl
@[simp] theorem serviceReturn_slotOf (j : Nat) : (s.serviceReturn).slotOf j = s.slotOf j := rfl
@[simp] theorem serviceReturn_channelAt (u j : Nat) : (s.serviceReturn).channelAt u j = s.channelAt u j := rfl

end Sys2Proof.Machine.State
end

