-- ==== Sys2Proof/Laws/Tables.lean ====
section
/-! SUPPORT. Reading a table after a write: the entry written and every other entry. -/

namespace Sys2Proof.Machine.State

variable (s : State)

theorem chan_setChan (i j : Nat) (c : Channel) :
    (s.setChan i c).chan j = if i = j ∧ i < s.ch.length then c else s.chan j := by
  simp only [chan, setChan_ch, List.getD_eq_getElem?_getD, List.getElem?_set]
  split <;> rename_i h
  · subst h; split <;> simp_all
  · simp [h]

theorem timer_setTimer (t u : Nat) (x : Timer) :
    (s.setTimer t x).timer u = if t = u ∧ t < s.tm.length then x else s.timer u := by
  simp only [timer, setTimer_tm, List.getD_eq_getElem?_getD, List.getElem?_set]
  split <;> rename_i h
  · subst h; split <;> simp_all
  · simp [h]

theorem modeOf_setOutput (p q : Nat) :
    (s.setOutput p).modeOf q = if p = q ∧ p < s.mode.length then true else s.modeOf q := by
  simp only [modeOf, setOutput_mode, List.getD_eq_getElem?_getD, List.getElem?_set]
  split <;> rename_i h
  · subst h; split <;> simp_all
  · simp [h]

theorem levelOf_setLevel (p q : Nat) (b : Bool) :
    (s.setLevel p b).levelOf q = if p = q ∧ p < s.level.length then b else s.levelOf q := by
  simp only [levelOf, setLevel_level, List.getD_eq_getElem?_getD, List.getElem?_set]
  split <;> rename_i h
  · subst h; split <;> simp_all
  · simp [h]

@[simp] theorem chan_setChan_ne {i j : Nat} (c : Channel) (h : i ≠ j) : (s.setChan i c).chan j = s.chan j := by
  simp [chan_setChan, h]

@[simp] theorem timer_setTimer_ne {t u : Nat} (x : Timer) (h : t ≠ u) : (s.setTimer t x).timer u = s.timer u := by
  simp [timer_setTimer, h]

theorem timer_setTimer_same {t : Nat} (x : Timer) (h : t < s.tm.length) : (s.setTimer t x).timer t = x := by
  simp [timer_setTimer, h]

theorem chan_setChan_same {i : Nat} (c : Channel) (h : i < s.ch.length) : (s.setChan i c).chan i = c := by
  simp [chan_setChan, h]

/-- A timer outside the table reads as a reset timer, so its flags are 0. -/
theorem timer_of_le {t : Nat} (h : s.tm.length ≤ t) : s.timer t = Timer.reset := by
  simp [timer, List.getD_eq_getElem?_getD, List.getElem?_eq_none h]

/-- A running timer is in the table. -/
theorem lt_of_trun {t : Nat} (h : (s.timer t).trun = true) : t < s.tm.length := by
  by_contra hn
  rw [timer_of_le s (by omega)] at h
  exact absurd h (by decide)

/-- A timer with a pending match is in the table. -/
theorem lt_of_ocf {t : Nat} (h : (s.timer t).ocf = true) : t < s.tm.length := by
  by_contra hn
  rw [timer_of_le s (by omega)] at h
  exact absurd h (by decide)

@[simp] theorem setTimer_setTimer (t : Nat) (x y : Timer) : (s.setTimer t x).setTimer t y = s.setTimer t y := by
  simp [setTimer]

theorem timerActive_iff (t : Nat) :
    s.timerActive t = true ↔ ∃ j, j < s.cfg.maxChannels ∧ s.timerOf j = t ∧ (s.chan j).isActive = true := by
  simp [timerActive]

theorem timerActive_eq_false (t : Nat) :
    s.timerActive t = false ↔ ∀ j, j < s.cfg.maxChannels → s.timerOf j = t → (s.chan j).isActive = false := by
  simp [timerActive]

end Sys2Proof.Machine.State
end

