-- ==== Sys2Proof/Laws/Commands.lean ====
section
/-! SUPPORT. What the command unit does: the micro-step it runs, by its position, and the cases of every command that
answers a next state. -/

namespace Sys2Proof.Machine

/-- From idle, a command runs its first micro-step (40_host_port.md R102). -/
theorem runCommand_idle {c : Word} {f : State → State} {fs : List (State → State)} {s : State} (h : s.cu = .idle) :
    runCommand c (f :: fs) s = .next (f s) := by
  simp [runCommand, State.microStepOf, h]

/-- At busy(c, k + 1), the command c runs its micro-step k + 1. -/
theorem runCommand_busy {c : Word} {k : Nat} {id : ChannelId} {f : State → State} {fs : List (State → State)}
    {s : State} (h : s.cu = .busy c (k + 1) id) (hf : fs[k]? = some f) : runCommand c fs s = .next (f s) := by
  simp [runCommand, State.microStepOf, h, hf]

/-- A next state of a command is one of its micro-steps, run where cu says. -/
theorem runCommand_next {c : Word} {fs : List (State → State)} {s s' : State} (h : runCommand c fs s = .next s') :
    ∃ k f, fs[k]? = some f ∧ s' = f s ∧ ((s.cu = .idle ∧ k = 0) ∨ ∃ id, s.cu = .busy c (k + 1) id) := by
  rcases hcu : s.cu with _ | ⟨c', k, id⟩
  · simp only [runCommand, State.microStepOf, hcu] at h
    rcases hf : fs[0]? with _ | f <;> simp only [hf] at h <;> cases h
    exact ⟨0, f, hf, rfl, .inl ⟨rfl, rfl⟩⟩
  · by_cases hc : c' = c
    · subst hc
      rcases k with _ | k <;> simp only [runCommand, State.microStepOf, hcu, if_pos] at h
      · cases h
      · rcases hf : fs[k]? with _ | f <;> simp only [hf] at h <;> cases h
        exact ⟨k, f, hf, rfl, .inr ⟨id, rfl⟩⟩
    · simp only [runCommand, State.microStepOf, hcu, if_neg hc] at h
      cases h

/-- A command of one micro-step, from any state it answers a next state. -/
theorem runCommand_one {c : Word} {f : State → State} {s s' : State} (h : runCommand c [f] s = .next s') : s' = f s := by
  obtain ⟨k, g, hg, rfl, -⟩ := runCommand_next h
  match k, hg with
  | 0, hg => simp at hg; rw [hg]
  | k + 1, hg => simp at hg

/-- CREATE counts or stores the width (41_registry.md R131). -/
theorem execCreate_next {s s' : State} (h : execCreate s = .next s') :
    (s' = s.createCount ∧ (s.cu = .idle ∨ ∃ id, s.cu = .busy 0x1000 1 id)) ∨
      (s' = s.createWidth ∧ ∃ id, s.cu = .busy 0x1000 2 id) := by
  obtain ⟨k, g, hg, rfl, hk⟩ := runCommand_next h
  rw [wordOf_create] at hk
  match k, hg with
  | 0, hg =>
    simp only [List.getElem?_cons_zero, Option.some.injEq] at hg
    exact .inl ⟨by rw [hg], hk.imp And.left id⟩
  | 1, hg =>
    simp only [List.getElem?_cons_succ, List.getElem?_cons_zero, Option.some.injEq] at hg
    exact .inr ⟨by rw [hg], hk.resolve_left (by omega)⟩
  | k + 2, hg => simp at hg

/-- ATTACH configures, initialises or activates (R132). -/
theorem execAttach_next {x : Bool} {id : ChannelId} {s s' : State} (h : execAttach x id s = .next s') :
    (s' = s.attachConfigure x id ∧ (s.cu = .idle ∨ ∃ l, s.cu = .busy (wordOf (.attach x id)) 1 l)) ∨
      (s' = s.attachTimer x id ∧ ∃ l, s.cu = .busy (wordOf (.attach x id)) 2 l) ∨
      (s' = s.attachActivate id ∧ ∃ l, s.cu = .busy (wordOf (.attach x id)) 3 l) := by
  obtain ⟨k, g, hg, rfl, hk⟩ := runCommand_next h
  match k, hg with
  | 0, hg =>
    simp only [List.getElem?_cons_zero, Option.some.injEq] at hg
    exact .inl ⟨by rw [← hg], hk.imp And.left fun h => h⟩
  | 1, hg =>
    simp only [List.getElem?_cons_succ, List.getElem?_cons_zero, Option.some.injEq] at hg
    exact .inr (.inl ⟨by rw [← hg], hk.resolve_left (by omega)⟩)
  | 2, hg =>
    simp only [List.getElem?_cons_succ, List.getElem?_cons_zero, Option.some.injEq] at hg
    exact .inr (.inr ⟨by rw [← hg], hk.resolve_left (by omega)⟩)
  | k + 3, hg => simp at hg

/-- DETACH deactivates or shuts down (R133). -/
theorem execDetach_next {id : ChannelId} {s s' : State} (h : execDetach id s = .next s') :
    (s' = s.detachDeactivate id ∧ (s.cu = .idle ∨ ∃ l, s.cu = .busy (wordOf (.detach id)) 1 l)) ∨
      (s' = s.detachTimer id ∧ ∃ l, s.cu = .busy (wordOf (.detach id)) 2 l) := by
  obtain ⟨k, g, hg, rfl, hk⟩ := runCommand_next h
  match k, hg with
  | 0, hg =>
    simp only [List.getElem?_cons_zero, Option.some.injEq] at hg
    exact .inl ⟨by rw [← hg], hk.imp And.left fun h => h⟩
  | 1, hg =>
    simp only [List.getElem?_cons_succ, List.getElem?_cons_zero, Option.some.injEq] at hg
    exact .inr ⟨by rw [← hg], hk.resolve_left (by omega)⟩
  | k + 2, hg => simp at hg

/-- A command that ends leaves an idle state alone but for its effect. -/
theorem State.done_eq_self {s : State} (h : s.cu = .idle) : s.done = s := by
  cases s; cases h; rfl

/-- WRITE_US's store, as one field of one channel: GIE comes out as it went in (R135). -/
theorem State.storeUs_eq (s : State) (i : Nat) (v : Int) :
    s.storeUs i v =
      s.setChan i
        { s.chan i with pulseTicks := BitVec.ofInt 16 (usToTicks s.cfg (s.clampUs i v - s.cfg.trimDuration)) } := rfl

/-- A host access runs only while the host is not stalled. -/
theorem whenIdle_idle {s : State} {f : State → Host.Outcome State Fault Refusal} (h : s.cu = .idle) :
    whenIdle s f = f s := by
  simp [whenIdle, h]

theorem whenIdle_next {s s' : State} {f : State → Host.Outcome State Fault Refusal} (h : whenIdle s f = .next s') :
    s.cu = .idle ∧ f s = .next s' := by
  unfold whenIdle at h
  split at h
  · exact ⟨‹_›, h⟩
  · cases h

end Sys2Proof.Machine
end

