-- ==== Sys2Proof/Laws/Events.lean ====
section
/-! SUPPORT. What the events do: the cases of a tick, the frame of each step of a service, and when a service is
taken. -/

namespace Sys2Proof.Machine

/-- An event of a timer that exists runs. -/
theorem forTimer_lt {t : Nat} {s : State} {f : State → Host.Outcome State Fault Refusal} (h : t < s.cfg.numTimers) :
    forTimer t s f = f s := if_pos h

theorem forTimer_next {t : Nat} {s s' : State} {f : State → Host.Outcome State Fault Refusal}
    (h : forTimer t s f = .next s') : t < s.cfg.numTimers ∧ f s = .next s' := by
  unfold forTimer at h
  split at h
  · exact ⟨‹_›, h⟩
  · cases h

theorem matchesAt_iff (a b : Word) : matchesAt a b = true ↔ a = b := by simp [matchesAt]

theorem serviceEnabled_iff (x : Timer) (gie : Bool) :
    serviceEnabled x gie = true ↔ x.ocf = true ∧ x.ocie = true ∧ gie = true := by
  simp [serviceEnabled, and_assoc]

/-! ### The tick -/

/-- A standing counter takes no step (42_scheduler.md R170). -/
theorem State.tick_stopped {s : State} {t : Nat} (h : (s.timer t).trun = false) : s.tick t = s := by
  simp [State.tick, h]

/-- A tick with no match only counts (R170). -/
theorem State.tick_count {s : State} {t : Nat} (h : (s.timer t).trun = true)
    (hm : (s.timer t).tcnt + 1 ≠ (s.timer t).ocr) :
    s.tick t = s.setTimer t { s.timer t with tcnt := (s.timer t).tcnt + 1 } := by
  simp only [State.tick, h, if_true, timer_setTimer_same s _ (lt_of_trun s h), matchesAt_iff, if_neg hm]

/-- A tick with a match is the compare match of the counted timer (R170). -/
theorem State.tick_compareMatch {s : State} {t : Nat} (h : (s.timer t).trun = true)
    (hm : (s.timer t).tcnt + 1 = (s.timer t).ocr) :
    s.tick t = (s.setTimer t { s.timer t with tcnt := (s.timer t).tcnt + 1 }).compareMatch t := by
  simp only [State.tick, h, if_true, timer_setTimer_same s _ (lt_of_trun s h), matchesAt_iff, if_pos hm]

/-- A tick with a match that nobody waits for sets OCF (R171). -/
theorem State.tick_match {s : State} {t : Nat} (h : (s.timer t).trun = true)
    (hm : (s.timer t).tcnt + 1 = (s.timer t).ocr) (ho : (s.timer t).overrunDue = false) :
    s.tick t = s.setTimer t { s.timer t with tcnt := (s.timer t).tcnt + 1, ocf := true } := by
  rw [State.tick_compareMatch h hm, State.compareMatch, timer_setTimer_same s _ (lt_of_trun s h), if_neg,
    setTimer_setTimer]
  simpa [Timer.overrunDue] using ho

/-- A tick with a match while one is pending and enabled sets OVR and records FLT_OVR (R172). -/
theorem State.tick_overrun {s : State} {t : Nat} (h : (s.timer t).trun = true)
    (hm : (s.timer t).tcnt + 1 = (s.timer t).ocr) (ho : (s.timer t).overrunDue = true) :
    s.tick t =
      (s.setTimer t { s.timer t with tcnt := (s.timer t).tcnt + 1, ovr := true, ocf := true }).raise .fltOvr t := by
  rw [State.tick_compareMatch h hm, State.compareMatch, timer_setTimer_same s _ (lt_of_trun s h), if_pos,
    setTimer_setTimer]
  simpa [Timer.overrunDue] using ho

/-- All that a tick can be: no step, a count, a match, an overrun. -/
theorem State.tick_cases (s : State) (t : Nat) :
    ((s.timer t).trun = false ∧ s.tick t = s) ∨
      ((s.timer t).trun = true ∧ t < s.tm.length ∧
        (((s.timer t).tcnt + 1 ≠ (s.timer t).ocr ∧
            s.tick t = s.setTimer t { s.timer t with tcnt := (s.timer t).tcnt + 1 }) ∨
          ((s.timer t).tcnt + 1 = (s.timer t).ocr ∧ (s.timer t).overrunDue = false ∧
            s.tick t = s.setTimer t { s.timer t with tcnt := (s.timer t).tcnt + 1, ocf := true }) ∨
          ((s.timer t).tcnt + 1 = (s.timer t).ocr ∧ (s.timer t).overrunDue = true ∧
            s.tick t =
              (s.setTimer t { s.timer t with tcnt := (s.timer t).tcnt + 1, ovr := true, ocf := true }).raise
                .fltOvr t))) := by
  cases h : (s.timer t).trun
  · exact .inl ⟨rfl, s.tick_stopped h⟩
  · refine .inr ⟨rfl, lt_of_trun s h, ?_⟩
    by_cases hm : (s.timer t).tcnt + 1 = (s.timer t).ocr
    · cases ho : (s.timer t).overrunDue
      · exact .inr (.inl ⟨hm, rfl, State.tick_match h hm ho⟩)
      · exact .inr (.inr ⟨hm, rfl, State.tick_overrun h hm ho⟩)
    · exact .inl ⟨hm, State.tick_count h hm⟩

/-! ### The service -/

theorem Timer.slot_reset : Timer.slot Timer.reset = -1 := by decide

/-- The count that steps 3 and 4 of a service read as "now" (R175, R178). -/
def State.servedCount (s : State) (t : Nat) : Word := if (s.timer t).slot < 0 then 0 else (s.timer t).tcnt

/-- Timer t after its service. -/
def State.servedTimer (s : State) (t : Nat) : Timer :=
  if s.slotExists t (s.timer t).nextSlot then
    { s.timer t with
      ocf := false, tcnt := s.servedCount t
      ocr := s.servedCount t + (s.chan (s.channelAt t (s.timer t).nextSlot)).pulseTicks
      activeSlot := BitVec.ofNat 8 (s.timer t).nextSlot }
  else
    { s.timer t with
      ocf := false, tcnt := s.servedCount t, ocr := refreshTarget s.cfg (s.servedCount t), activeSlot := -1 }

/-- Does the service of timer t end a pulse, that is drive low the pin of the slot it stands at (R176)? -/
def State.lowers (s : State) (t : Nat) : Bool :=
  decide (0 ≤ (s.timer t).slot ∧ s.channelAt t (s.timer t).slot.toNat < s.channelCount.toNat) &&
    (s.chan (s.channelAt t (s.timer t).slot.toNat)).isActive

/-- Does it start a pulse, that is drive high the pin of the next slot (R178)? -/
def State.raises (s : State) (t : Nat) : Bool :=
  decide (s.slotExists t (s.timer t).nextSlot) && (s.chan (s.channelAt t (s.timer t).nextSlot)).isActive

/-- The level latches after the end of the pulse. -/
def State.loweredLevel (s : State) (t : Nat) : List Bool :=
  if s.lowers t then s.level.set (s.chan (s.channelAt t (s.timer t).slot.toNat)).pin.toNat false else s.level

/-- The level latches after the service of timer t. -/
def State.servedLevel (s : State) (t : Nat) : List Bool :=
  if s.raises t then
    (s.loweredLevel t).set (s.chan (s.channelAt t (s.timer t).nextSlot)).pin.toNat true
  else s.loweredLevel t

/-- Entry and step 1 of a service: OCF, the count and one level (R175, R176). -/
theorem State.endPulse_serviceEntry {s : State} {t : Nat} (ht : t < s.tm.length) :
    (s.serviceEntry t).endPulse t =
      { s with
        tm := s.tm.set t { s.timer t with ocf := false, tcnt := s.servedCount t }
        level := s.loweredLevel t } := by
  have htimer : (s.serviceEntry t).timer t = { s.timer t with ocf := false } := timer_setTimer_same s _ ht
  have hslot : ((s.serviceEntry t).timer t).slot = (s.timer t).slot := by rw [htimer]; rfl
  by_cases h : (s.timer t).slot < 0
  · have hl : s.loweredLevel t = s.level := by
      simp [loweredLevel, lowers, show ¬ 0 ≤ (s.timer t).slot by omega]
    rw [hl, State.endPulse, if_pos (by rw [hslot]; exact h), htimer, State.servedCount, if_pos h]
    simp [serviceEntry, setTimer]
  · rw [State.endPulse, if_neg (by rw [hslot]; exact h), hslot, State.servedCount, if_neg h]
    by_cases hl : s.lowers t = true
    · have hl' := hl
      simp only [lowers, Bool.and_eq_true, decide_eq_true_eq] at hl'
      rw [loweredLevel, if_pos hl]
      exact (if_pos ⟨hl'.1.2, hl'.2⟩).trans rfl
    · rw [loweredLevel, if_neg hl]
      refine (if_neg fun hc => hl ?_).trans rfl
      simp only [lowers, Bool.and_eq_true, decide_eq_true_eq]
      exact ⟨⟨by omega, hc.1⟩, hc.2⟩

/-- A service changes its own timer and the levels, and nothing else (R174, 60_exceptions.md R215). -/
theorem State.service_eq {s : State} {t : Nat} (ht : t < s.tm.length) :
    s.service t = { s with tm := s.tm.set t (s.servedTimer t), level := s.servedLevel t } := by
  have htimer : ((s.serviceEntry t).endPulse t).timer t =
      { s.timer t with ocf := false, tcnt := s.servedCount t } := by
    rw [State.endPulse_serviceEntry ht]
    simp [State.timer, ht]
  unfold State.service
  by_cases hk : s.slotExists t (s.timer t).nextSlot
  · simp only [if_pos hk, State.startPulse, htimer]
    rw [State.endPulse_serviceEntry ht, State.servedTimer, if_pos hk, State.servedLevel]
    by_cases ha : (s.chan (s.channelAt t (s.timer t).nextSlot)).isActive = true
    · have hr : s.raises t = true := by simp only [raises, ha, decide_eq_true hk, Bool.and_self]
      rw [if_pos hr]
      simp [setTimer, setLevel, chan, channelAt, serviceReturn] at ha ⊢
      simp [ha]
    · have hr : ¬ s.raises t = true := by simp [raises, ha]
      rw [if_neg hr]
      simp [setTimer, setLevel, chan, channelAt, serviceReturn] at ha ⊢
      simp [ha]
  · have hr : ¬ s.raises t = true := by simp only [raises, decide_eq_false hk]; simp
    simp only [if_neg hk, State.startRefresh, htimer]
    rw [State.endPulse_serviceEntry ht, State.servedTimer, if_neg hk, State.servedLevel, if_neg hr]
    simp [setTimer, serviceReturn]

/-- A service that answers a next state is not enabled and no step, or enabled, at a slot some rule stores, and the
effect of R174. -/
theorem execService_next {s s' : State} {t : Nat} (h : execService t s = .next s') :
    t < s.cfg.numTimers ∧
      ((serviceEnabled (s.timer t) s.gie = false ∧ s' = s) ∨
        (serviceEnabled (s.timer t) s.gie = true ∧ t < s.tm.length ∧ -1 ≤ (s.timer t).slot ∧
          (s.timer t).slot < s.cfg.channelsPerTimer ∧ s' = s.service t)) := by
  obtain ⟨ht, h⟩ := forTimer_next h
  refine ⟨ht, ?_⟩
  cases he : serviceEnabled (s.timer t) s.gie
  · simp only [he, Bool.false_eq_true, if_false] at h
    cases h
    exact .inl ⟨rfl, rfl⟩
  · simp only [he, if_true] at h
    split at h
    · cases h
    · cases h
      rename_i hr
      push Not at hr
      exact .inr ⟨rfl, State.lt_of_ocf s ((serviceEnabled_iff _ _).mp he).1, hr.1, hr.2, rfl⟩

/-- An enabled service at a slot that some rule stores is taken. -/
theorem execService_enabled {s : State} {t : Nat} (ht : t < s.cfg.numTimers)
    (he : serviceEnabled (s.timer t) s.gie = true) (hlo : -1 ≤ (s.timer t).slot)
    (hhi : (s.timer t).slot < s.cfg.channelsPerTimer) : execService t s = .next (s.service t) := by
  rw [execService, forTimer_lt ht, if_pos he, if_neg (by omega)]

/-- A service that is not enabled is no step (R173). -/
theorem execService_disabled {s : State} {t : Nat} (ht : t < s.cfg.numTimers)
    (he : serviceEnabled (s.timer t) s.gie = false) : execService t s = .next s := by
  rw [execService, forTimer_lt ht, if_neg (by simp [he])]

end Sys2Proof.Machine
end

