-- ==== Sys2Proof/Laws/Elapsed.lean ====
section
/-! SUPPORT. What time does to a timer that nobody else touches. -/

namespace Sys2Proof.Machine

/-- When a count after m ticks and one more is the compare value. -/
theorem add_succ_eq_iff {a b : Word} {m : Nat} : a + BitVec.ofNat 16 m + 1 = b ↔ m % 65536 = (b - a - 1).toNat := by
  have h1 : a + BitVec.ofNat 16 m + 1 = b ↔ BitVec.ofNat 16 m = b - a - 1 := by
    constructor
    · rintro rfl; ring
    · intro h; rw [h]; ring
  rw [h1, ← BitVec.toNat_inj, BitVec.toNat_ofNat, show (2:Nat)^16 = 65536 by norm_num]

/-- All that a run of m ticks makes of a running timer with no match pending, while the steps between leave the timer alone:
the count goes up by m, the match is pending from the distance of 42_scheduler.md R188 on, no overrun comes for another
2^16 ticks, and the rest stays. -/
theorem elapsed_timer {keep : State → State → Prop} {t : Nat} (hk : ∀ a b, keep a b → a.KeepsTimer t b)
    {m : Nat} {s1 sm : State} (h : Elapsed keep t m s1 sm) (hr : (s1.timer t).trun = true) (ho : (s1.timer t).ocf = false) :
    sm.cfg = s1.cfg ∧ (sm.timer t).ocie = (s1.timer t).ocie ∧ (sm.timer t).ocr = (s1.timer t).ocr ∧
    (sm.timer t).activeSlot = (s1.timer t).activeSlot ∧ (sm.timer t).trun = true ∧
    (sm.timer t).tcnt = (s1.timer t).tcnt + BitVec.ofNat 16 m ∧
    ((sm.timer t).ocf = true ↔ ((s1.timer t).ocr - (s1.timer t).tcnt - 1).toNat + 1 ≤ m) ∧
    (m < ((s1.timer t).ocr - (s1.timer t).tcnt - 1).toNat + 1 + 65536 → (sm.timer t).ovr = (s1.timer t).ovr) := by
  induction h with
  | start =>
    refine ⟨rfl, rfl, rfl, rfl, hr, by simp, ?_, fun _ => rfl⟩
    rw [ho]
    exact ⟨fun h => (nomatch h), fun h => absurd h (Nat.not_succ_le_zero _)⟩
  | @tick n a b s2 hel hx ih =>
    obtain ⟨h1, h2, h3, h4, h5, h6, h7, h8⟩ := ih hr ho
    change execTick _ _ = _ at hx
    obtain ⟨-, hx⟩ := forTimer_next hx
    cases hx
    have hd := ((a.timer t).ocr - (a.timer t).tcnt - 1).isLt
    have e6 : ((a.timer t).tcnt + BitVec.ofNat 16 n) + 1 = (a.timer t).tcnt + BitVec.ofNat 16 (n+1) := by
      rw [BitVec.ofNat_add]; simp; ring
    rcases State.tick_cases b t with ⟨h, -⟩ | ⟨-, hl, ⟨hm, he⟩ | ⟨hm, hov, he⟩ | ⟨hm, hov, he⟩⟩
    · rw [h5] at h; cases h
    all_goals
      rw [he]
      try rw [show ∀ (x : State) u, (x.raise .fltOvr u).timer t = x.timer t from fun _ _ => rfl]
      simp only [State.timer_setTimer_same _ _ hl]
      rw [h3, h6] at hm
    · replace hm := mt add_succ_eq_iff.2 hm
      generalize ((a.timer t).ocr - (a.timer t).tcnt - 1).toNat = d at *
      refine ⟨h1, h2, h3, h4, h5, by rw [h6, e6], ?_, fun h => h8 (by omega)⟩
      rw [h7]; omega
    · replace hm := add_succ_eq_iff.1 hm
      generalize ((a.timer t).ocr - (a.timer t).tcnt - 1).toNat = d at *
      refine ⟨h1, h2, h3, h4, h5, by rw [h6, e6], ?_, fun h => h8 (by omega)⟩
      simp; omega
    · replace hm := add_succ_eq_iff.1 hm
      generalize ((a.timer t).ocr - (a.timer t).tcnt - 1).toNat = d at *
      have hov' : (b.timer t).ocf = true := by simp [Timer.overrunDue] at hov; exact hov.1
      have h7' := h7.1 hov'
      refine ⟨h1, h2, h3, h4, h5, ?_, ?_, fun h => ?_⟩
      · rw [h6, e6]
      · simp; omega
      · omega
  | other hel hx ih =>
    obtain ⟨e1, e2⟩ := hk _ _ hx
    rw [e1, e2]; exact ih hr ho

/-- A run of ticks with nothing between is such a run, and changes the timers, STATUS and FINFO at most. -/
theorem elapsed_ticks {keep : State → State → Prop} {t : Nat} (m : Nat) {s1 : State} (ht : t < s1.cfg.numTimers) :
    ∃ sm, ticks t m s1 = .next sm ∧ Elapsed keep t m s1 sm ∧ sm.cfg = s1.cfg ∧ sm.gie = s1.gie ∧
      sm.level = s1.level ∧ sm.ch = s1.ch ∧ sm.channelCount = s1.channelCount := by
  induction m with
  | zero => exact ⟨s1, rfl, .start _, rfl, rfl, rfl, rfl, rfl⟩
  | succ m ih =>
    obtain ⟨sm, h1, h2, h3, h4, h5, h6, h7⟩ := ih
    have hx : exec (.tick t) sm = .next (sm.tick t) := by
      change execTick t sm = _
      exact forTimer_lt (by rw [h3]; exact ht)
    refine ⟨sm.tick t, ?_, h2.tick hx, ?_⟩
    · have key : ∀ (l : List Instr) (a : State), execList (l ++ [.tick t]) a = match execList l a with
          | .next b => exec (.tick t) b | .fault f => .fault f | .refused r => .refused r := by
        intro l; induction l with
        | nil => intro a; simp only [List.nil_append, execList]; cases exec (.tick t) a <;> rfl
        | cons i l ih2 => intro a; simp only [List.cons_append, execList]; cases exec i a <;> simp [ih2]
      unfold ticks at h1 ⊢
      rw [List.replicate_succ', key, h1]; exact hx
    · rcases sm.tick_cases t with ⟨-, h⟩ | ⟨-, -, ⟨-, h⟩ | ⟨-, -, h⟩ | ⟨-, -, h⟩⟩ <;>
        rw [h] <;> exact ⟨h3, h4, h5, h6, h7⟩

end Sys2Proof.Machine
end

