-- ==== Sys2Proof/Laws/PerInstr.lean ====
section
/-! SUPPORT. Which instructions have a word: the commands and ILLEGAL do, the bus accesses and the events have none
(30_encoding.md R81, R89). One lemma per constructor. -/

namespace Sys2Proof.Laws.CommandHasWord

open Sys2Proof.Machine

/-- The command unit runs an instruction exactly when it has a word. -/
def Statement (i : Instr) : Prop := isCommand i = (encode i).isSome

theorem nop : Statement .nop := rfl
theorem create : Statement .create := rfl
theorem attach (x : Bool) (id : ChannelId) : Statement (.attach x id) := rfl
theorem detach (id : ChannelId) : Statement (.detach id) := rfl
theorem write (id : ChannelId) : Statement (.write id) := rfl
theorem writeUs (id : ChannelId) : Statement (.writeUs id) := rfl
theorem read (id : ChannelId) : Statement (.read id) := rfl
theorem readUs (id : ChannelId) : Statement (.readUs id) := rfl
theorem attached (id : ChannelId) : Statement (.attached id) := rfl
theorem illegal (c : Word) : Statement (.illegal c) := rfl
theorem hostRead (off n : Nat) : Statement (.hostRead off n) := rfl
theorem hostWrite (off n : Nat) (v : Word) : Statement (.hostWrite off n v) := rfl
theorem tick (t : Nat) : Statement (.tick t) := rfl
theorem compareMatch (t : Nat) : Statement (.compareMatch t) := rfl
theorem service (t : Nat) : Statement (.service t) := rfl
theorem timerInit (t : Nat) : Statement (.timerInit t) := rfl
theorem timerShutdown (t : Nat) : Statement (.timerShutdown t) := rfl

end Sys2Proof.Laws.CommandHasWord
end

