-- ==== Sys2Proof/Laws/Step.lean ====
section
/-! SUPPORT. All that a step of the machine can be, and what a host access leaves of the tables, the latches and the
timers. -/

namespace Sys2Proof.Machine

/-- The command unit's step: nothing when idle, else the next micro-step of the word in progress. -/
theorem resume_next {s s' : State} (h : resume s = .next s') :
    (s.cu = .idle ∧ s' = s) ∨ ∃ c k id, s.cu = .busy c k id ∧ exec (decode c) s = .next s' := by
  unfold resume at h
  split at h
  · cases h; exact .inl ⟨‹_›, rfl⟩
  · exact .inr ⟨_, _, _, ‹_›, h⟩

/-- What a step is, with the schedule it leaves: an event that stands at the head, a host access at the head while the
unit is idle, the next micro-step of the word in progress, or nothing. -/
theorem step_next {s s' : State} (h : step s = .next s') :
    s.cfg.wf ∧ ∃ r,
      (∃ t, (s.pending = .tick t :: r ∧ exec (.tick t) { s with pending := r } = .next s') ∨
        (s.pending = .service t :: r ∧ exec (.service t) { s with pending := r } = .next s')) ∨
      (s.cu = .idle ∧ ∃ off n, s.pending = .hostRead off n :: r ∧
        exec (.hostRead off n) { s with pending := r } = .next s') ∨
      (s.cu = .idle ∧ ∃ off n v, s.pending = .hostWrite off n v :: r ∧
        exec (.hostWrite off n v) { s with pending := r } = .next s') ∨
      (∃ c k id, s.cu = .busy c k id ∧ (∀ t q, s.pending ≠ .service t :: q) ∧
        exec (decode c) { s with pending := r } = .next s') ∨
      (s.cu = .idle ∧ s' = { s with pending := r }) := by
  unfold step agentStep at h
  split at h
  · refine ⟨‹_›, ?_⟩
    split at h <;> rename_i hp
    · obtain ⟨hc, rfl⟩ | ⟨c, k, id, hc, h⟩ := resume_next h
      · exact ⟨s'.pending, .inr (.inr (.inr (.inr ⟨hc, rfl⟩)))⟩
      · exact ⟨s.pending, .inr (.inr (.inr (.inl ⟨c, k, id, hc, by simp [hp], h⟩)))⟩
    · unfold hostStep at h
      split at h <;> rename_i hc
      · exact ⟨_, .inr (.inl ⟨hc, _, _, hp, h⟩)⟩
      · obtain ⟨hc', -⟩ | ⟨c, k, id, hc, h⟩ := resume_next h
        · simp [hc] at hc'
        · exact ⟨s.pending, .inr (.inr (.inr (.inl ⟨c, k, id, hc, by simp [hp], h⟩)))⟩
    · unfold hostStep at h
      split at h <;> rename_i hc
      · exact ⟨_, .inr (.inr (.inl ⟨hc, _, _, _, hp, h⟩))⟩
      · obtain ⟨hc', -⟩ | ⟨c, k, id, hc, h⟩ := resume_next h
        · simp [hc] at hc'
        · exact ⟨s.pending, .inr (.inr (.inr (.inl ⟨c, k, id, hc, by simp [hp], h⟩)))⟩
    · obtain ⟨hc, rfl⟩ | ⟨c, k, id, hc, h⟩ := resume_next h
      · exact ⟨_, .inr (.inr (.inr (.inr ⟨hc, rfl⟩)))⟩
      · exact ⟨_, .inr (.inr (.inr (.inl ⟨c, k, id, hc, by simp [hp], h⟩)))⟩
    · exact ⟨_, .inl ⟨_, .inl ⟨hp, h⟩⟩⟩
    · exact ⟨_, .inl ⟨_, .inr ⟨hp, h⟩⟩⟩
  · cases h

/-- A host write is one that changes no table, latch or timer, or the first micro-step of the word written to CMD
(40_host_port.md R100 to R105). -/
theorem execHostWrite_next {off n : Nat} {v : Word} {s s' : State} (h : execHostWrite off n v s = .next s') :
    s.cu = .idle ∧ (exec (decode v) s = .next s' ∨
      (s'.ch = s.ch ∧ s'.channelCount = s.channelCount ∧ s'.tm = s.tm ∧ s'.mode = s.mode ∧ s'.level = s.level ∧
        s'.cu = s.cu ∧ s'.cfg = s.cfg)) := by
  obtain ⟨hc, h⟩ := whenIdle_next h
  refine ⟨hc, ?_⟩
  split at h
  · cases h; exact .inr ⟨rfl, rfl, rfl, rfl, rfl, rfl, rfl⟩
  · split at h
    · left
      unfold execute at h
      split at h <;> rename_i hd <;> first | cases h | (rw [hd]; exact h)
    · right
      split at h
      · cases h; exact ⟨rfl, rfl, rfl, rfl, rfl, rfl, rfl⟩
      · split at h
        · cases h; exact ⟨rfl, rfl, rfl, rfl, rfl, rfl, rfl⟩
        · split at h
          · cases h; exact ⟨rfl, rfl, rfl, rfl, rfl, rfl, rfl⟩
          · split at h <;> cases h <;> exact ⟨rfl, rfl, rfl, rfl, rfl, rfl, rfl⟩

/-- A host read changes no table, latch or timer. -/
theorem execHostRead_next {off n : Nat} {s s' : State} (h : execHostRead off n s = .next s') :
    s.cu = .idle ∧ s'.ch = s.ch ∧ s'.channelCount = s.channelCount ∧ s'.tm = s.tm ∧ s'.mode = s.mode ∧
      s'.level = s.level ∧ s'.cu = s.cu ∧ s'.cfg = s.cfg := by
  obtain ⟨hc, h⟩ := whenIdle_next h
  split at h <;> cases h <;> exact ⟨hc, rfl, rfl, rfl, rfl, rfl, rfl, rfl⟩

end Sys2Proof.Machine
end

