-- ==== Sys2Proof/Tests/Slice0.lean ====
section
/-! SUPPORT. Tests with expected values from spec/95_test_vectors.md (the V and E numbers) and the encodings of
spec/30_encoding.md, the smoke tests of well-formedness, and the witnesses that the hypotheses of the statements can be
met. -/

namespace Sys2Proof.Tests

open Sys2Proof.Machine

/-! ### States for the tests -/

/-- The next state, if there is one. -/
def nextOf : Host.Outcome State Fault Refusal → Option State
  | .next s => some s
  | .fault _ => none
  | .refused _ => none

theorem exists_next {o : Host.Outcome State Fault Refusal} (h : (nextOf o).isSome = true) : ∃ s', o = .next s' := by
  cases o with
  | next s' => exact ⟨s', rfl⟩
  | fault f => cases h
  | refused r => cases h

/-- CFG-A with the channels cs created, timer 0 as x, and the pins 2 and 3 outputs. -/
def board (cs : List Channel) (x : Timer) : State :=
  { State.reset with
    ch := cs ++ List.replicate (12 - cs.length) Channel.reset
    channelCount := BitVec.ofNat 8 cs.length
    tm := [x]
    mode := [false, false, true, true] ++ List.replicate 16 false }

/-- V45: one created channel. -/
def created : State := board [{ Channel.reset with pulseTicks := 3000 }] Timer.reset

/-- One created channel with trims -114 and 100 (V55: an envelope of 1000 to 2000 us). -/
def trimmed : State := board [{ Channel.reset with pulseTicks := 3000, minTrim := 0x8E, maxTrim := 0x64 }] Timer.reset

/-- Channels 0 and 1 active on pins 2 and 3 with 1996 and 3996 ticks (V81), at a slot and a count, a service due. -/
def served (slot : Byte) (count : Word) : State :=
  { board [{ Channel.reset with pin := 2, isActive := true, pulseTicks := 1996 },
        { Channel.reset with pin := 3, isActive := true, pulseTicks := 3996 }]
      { tcnt := count, ocr := count, ocie := true, ocf := true, ovr := false, trun := true, activeSlot := slot } with
    gie := true }

/-- V82: slot 0 is driving, its pin is high. -/
def driving : State := { served 0 1996 with level := [false, false, true] ++ List.replicate 17 false }

/-- One inactive channel and a timer that runs. -/
def counting (tcnt ocr : Word) (ocie ocf : Bool) : State :=
  board [Channel.reset] { Timer.reset with tcnt := tcnt, ocr := ocr, ocie := ocie, ocf := ocf, trun := true }

/-- A table with every channel of CFG-A created. -/
def full : State := board (List.replicate 12 Channel.reset) Timer.reset

/-! ### Well-formedness: an ill-formed term for each check, refused -/

theorem test_cfgA_wf : Config.cfgA.wf := by decide
theorem test_wf_refuses_no_timers : ¬ { Config.cfgA with numTimers := 0 }.wf := by decide
theorem test_wf_refuses_nine_timers : ¬ { Config.cfgA with numTimers := 9 }.wf := by decide
theorem test_wf_refuses_no_channels : ¬ { Config.cfgA with channelsPerTimer := 0 }.wf := by decide
theorem test_wf_refuses_128_channels : ¬ { Config.cfgA with channelsPerTimer := 128 }.wf := by decide
theorem test_wf_refuses_256_channels : ¬ { Config.cfgA with numTimers := 8, channelsPerTimer := 32 }.wf := by decide
theorem test_wf_refuses_no_pins : ¬ { Config.cfgA with numPins := 0 }.wf := by decide
theorem test_wf_refuses_257_pins : ¬ { Config.cfgA with numPins := 257 }.wf := by decide
theorem test_wf_refuses_no_cycles : ¬ { Config.cfgA with cycPerUs := 0 }.wf := by decide
theorem test_wf_refuses_prescale_0 : ¬ { Config.cfgA with prescale := 0 }.wf := by decide
theorem test_wf_refuses_large_trim : ¬ { Config.cfgA with minPulseWidth := 1 }.wf := by decide
theorem test_wf_refuses_empty_width_range : ¬ { Config.cfgA with minPulseWidth := 2400 }.wf := by decide
theorem test_wf_refuses_wide_pulses : ¬ { Config.cfgA with maxPulseWidth := 32768, prescale := 100 }.wf := by decide
theorem test_wf_refuses_long_pulses : ¬ { Config.cfgA with maxPulseWidth := 32767, cycPerUs := 17 }.wf := by decide
theorem test_wf_refuses_wide_default : ¬ { Config.cfgA with defaultPulseWidth := 32768 }.wf := by decide
theorem test_wf_refuses_long_default :
    ¬ { Config.cfgA with defaultPulseWidth := 32767, prescale := 7 }.wf := by decide
theorem test_wf_refuses_empty_frame : ¬ { Config.cfgA with cycPerUs := 1, prescale := 20001 }.wf := by decide
theorem test_wf_refuses_long_frame : ¬ { Config.cfgA with prescale := 4 }.wf := by decide
theorem test_wf_refuses_no_margin : ¬ { Config.cfgA with safetyMarginTicks := 0 }.wf := by decide
theorem test_wf_refuses_large_margin : ¬ { Config.cfgA with safetyMarginTicks := 65536 }.wf := by decide
/-- The widest frame that fits, 65535 ticks, and the first that does not. -/
theorem test_wf_frame_bound :
    { Config.cfgA with cycPerUs := 65535, prescale := 20000 }.wf ∧
    ¬ { Config.cfgA with cycPerUs := 65536, prescale := 20000 }.wf := by decide
/-- INIT_COMPARE follows the margin (00_scope.md R5 P12, R7), so the two tests before this cover its bounds too. -/
theorem test_initCompare_is_the_margin :
    Config.cfgA.initCompare = 4 ∧ { Config.cfgA with safetyMarginTicks := 9 }.initCompare = 9 := by decide
theorem test_wf_refuses_legal_as_illegal : Instr.wf Config.cfgA (.illegal 0x1000) = false := by decide
theorem test_wf_refuses_events_of_timer_1 :
    Instr.wf Config.cfgA (.tick 1) = false ∧ Instr.wf Config.cfgA (.compareMatch 1) = false ∧
    Instr.wf Config.cfgA (.service 1) = false ∧ Instr.wf Config.cfgA (.timerInit 1) = false ∧
    Instr.wf Config.cfgA (.timerShutdown 1) = false := by decide

/-! ### Decoding: words written out from the encodings of 30_encoding.md R80 to R85 (OP, RSV, X, ID) -/

theorem test_decode_nop : decode 0b0000_000_0_00000000 = .nop := by decide
theorem test_decode_create : decode 0b0001_000_0_00000000 = .create := by decide
theorem test_decode_attach : decode 0b0010_000_0_00000101 = .attach false 5 := by decide
theorem test_decode_attach_x : decode 0b0010_000_1_11111111 = .attach true 255 := by decide
theorem test_decode_detach : decode 0b0011_000_0_10000001 = .detach 129 := by decide
theorem test_decode_write : decode 0b0100_000_0_00000011 = .write 3 := by decide
theorem test_decode_writeUs : decode 0b0101_000_0_00000011 = .writeUs 3 := by decide
theorem test_decode_read : decode 0b0110_000_0_00000011 = .read 3 := by decide
theorem test_decode_readUs : decode 0b0111_000_0_00000011 = .readUs 3 := by decide
theorem test_decode_attached : decode 0b1000_000_0_11111110 = .attached 254 := by decide
theorem test_decode_illegal :
    decode 0b0000_000_0_00000001 = .illegal 0x0001 ∧ decode 0b0001_000_1_00000000 = .illegal 0x1100 ∧
    decode 0b0010_001_0_11111111 = .illegal 0x22FF ∧ decode 0b0010_100_0_00000000 = .illegal 0x2800 ∧
    decode 0b0011_000_1_00000101 = .illegal 0x3105 ∧ decode 0b1001_000_0_00000000 = .illegal 0x9000 := by decide
/-- `wr CMD, 0x2001` is the bytes 01 20 (95_test_vectors.md section 0). -/
theorem test_decode_bytes : decodeBytes [0x01, 0x20] = .ok (.attach false 1, []) := rfl
theorem test_decode_truncated : decodeBytes [0x01] = .error .truncated := rfl
theorem test_decodeTableWord :
    decodeTableWord 16 0x5003 = some (.writeUs 3) ∧ decodeTableWord 32 0x5003 = none ∧
    decodeTableWord 16 0x15003 = none := by decide

/-! ### One instruction on one small state -/

/-- V72. -/
theorem test_nop : nextOf (exec .nop created) = some created := by decide

/-- V45: CREATE counts the id and yields. -/
theorem test_create_counts :
    (nextOf (exec .create State.reset)).map (fun s => (s.channelCount, s.cu)) = some (1, .busy 0x1000 2 0) := by decide

/-- V45: CREATE stores the default width, 3000 ticks, and returns the id. -/
theorem test_create_width :
    (nextOf (exec .create { State.reset with channelCount := 1, result := 7, cu := .busy 0x1000 2 0 })).map
      (fun s => (s.result, (s.chan 0).pulseTicks)) = some (0, 3000) := by decide

/-- V55: pin 2 becomes an output, with trims -114 and 100. -/
theorem test_attach_configures :
    (nextOf (exec (.attach true 0) { created with mode := State.reset.mode, arg0 := 2, arg1 := 1000, arg2 := 2000 })).map
      (fun s => (s.modeOf 2, s.chan 0)) =
    some (true, { pin := 2, isActive := false, pulseTicks := 3000, minTrim := 0x8E, maxTrim := 0x64 }) := by decide

/-- V59a: the pin test comes before the calibration test. -/
theorem test_attach_pin_first :
    (nextOf (exec (.attach true 0) { created with arg0 := 20, arg1 := 0, arg2 := 2400 })).map
      (fun s => (s.status, s.finfo)) = some (0x0304, 0x2100) := by decide

/-- V69: DETACH of the last active channel leaves TSTAT 0xFF08. -/
theorem test_detach_shuts_down :
    (nextOf (exec (.detach 0) { counting 0 4 true false with cu := .busy 0x3000 2 0 })).map
      (fun s => (s.regval 0x024, s.cu)) = some (0xFF08, .idle) := by decide

/-- V33: 89 degrees. -/
theorem test_write_degrees :
    (nextOf (exec (.write 0) { created with arg0 := 89 })).map (fun s => (s.chan 0).pulseTicks) = some 2918 := by decide

/-- V39a: the threshold itself is microseconds. -/
theorem test_write_threshold :
    (nextOf (exec (.write 0) { created with arg0 := 544 })).map (fun s => (s.chan 0).pulseTicks) = some 1084 := by decide

/-- V63. -/
theorem test_writeUs_clamps_to_the_channel :
    (nextOf (exec (.writeUs 0) { trimmed with arg0 := 2500 })).map (fun s => (s.chan 0).pulseTicks) = some 3996 := by
  decide

/-- V44g: ARG0 is signed. -/
theorem test_writeUs_signed :
    (nextOf (exec (.writeUs 0) { created with arg0 := 0x8000 })).map (fun s => (s.chan 0).pulseTicks) = some 1084 := by
  decide

/-- V47. -/
theorem test_read : (nextOf (exec (.read 0) created)).map State.result = some 92 := by decide

/-- Section 2.3: 1044 us against an envelope from 1056 to 2400 us is -1 degrees, truncated toward zero. -/
theorem test_read_negative :
    (nextOf (exec (.read 0)
      (board [{ Channel.reset with pulseTicks := 2084, minTrim := 0x80 }] Timer.reset))).map State.result =
    some 0xFFFF := by decide

/-- V46. -/
theorem test_readUs : (nextOf (exec (.readUs 0) created)).map State.result = some 1502 := by decide

/-- V51 and the state of V54. -/
theorem test_attached :
    (nextOf (exec (.attached 0) { created with result := 7 })).map State.result = some 0 ∧
    (nextOf (exec (.attached 1) driving)).map State.result = some 1 := by decide

/-- V98. -/
theorem test_illegal :
    (nextOf (exec (.illegal 0x9000) State.reset)).map (fun s => (s.status, s.finfo)) = some (0x0101, 0x9000) := by decide

/-- V15. -/
theorem test_hostRead_tstat : (nextOf (exec (.hostRead 0x024 2) State.reset)).map State.readData = some 0xFF00 := by
  decide

/-- V26. -/
theorem test_hostRead_odd :
    (nextOf (exec (.hostRead 0x00B 2) { State.reset with readData := 9 })).map
      (fun s => (s.readData, s.status, s.finfo)) = some (0, 0x0408, 0x000B) := by decide

/-- V18. -/
theorem test_hostWrite_ctrl : (nextOf (exec (.hostWrite 0x00C 2 0xFFFF) State.reset)).map
    (fun s => (s.gie, s.regval 0x00C)) = some (true, 1) := by decide

/-- V27. -/
theorem test_hostWrite_wide : (nextOf (exec (.hostWrite 0x000 4 0x1000) State.reset)).map
    (fun s => (s.channelCount, s.status, s.finfo)) = some (0, 0x0408, 0) := by decide

/-- V75. -/
theorem test_tick_wraps : (nextOf (exec (.tick 0) (counting 0xFFFF 0 true false))).map
    (fun s => ((s.timer 0).tcnt, (s.timer 0).ocf)) = some (0, true) := by decide

/-- V76. -/
theorem test_tick_overrun : (nextOf (exec (.tick 0) (counting 3 4 true true))).map
    (fun s => ((s.timer 0).ovr, s.status, s.finfo)) = some (true, 0x0510, 0) := by decide

/-- V77. -/
theorem test_compareMatch_disabled : (nextOf (exec (.compareMatch 0) (counting 4 4 false true))).map
    (fun s => ((s.timer 0).ovr, (s.timer 0).ocf, s.status)) = some (false, true, 0) := by decide

/-- V81. -/
theorem test_service_starts : (nextOf (exec (.service 0) (served (-1) 40000))).map
    (fun s => (s.timer 0, s.levelOf 2)) =
    some ({ tcnt := 0, ocr := 1996, ocie := true, ocf := false, ovr := false, trun := true, activeSlot := 0 },
      true) := by decide

/-- V82. -/
theorem test_service_moves : (nextOf (exec (.service 0) driving)).map
    (fun s => ((s.timer 0).ocr, (s.timer 0).activeSlot, s.levelOf 2, s.levelOf 3)) =
    some (5992, 1, false, true) := by decide

/-- V94, V95: OVR is kept. -/
theorem test_timerInit : (nextOf (exec (.timerInit 0)
    (board [] { Timer.reset with tcnt := 9, ocf := true, ovr := true, trun := true }))).map
    (fun s => (s.regval 0x020, s.regval 0x022, s.regval 0x024)) = some (0, 4, 0xFF0D) := by decide

/-- V96. -/
theorem test_timerShutdown : (nextOf (exec (.timerShutdown 0)
    (board [] { Timer.reset with tcnt := 2000, ocr := 1084, ocie := true, trun := true, activeSlot := 0 }))).map
    (fun s => (s.regval 0x020, s.regval 0x022, s.regval 0x024)) = some (2000, 1084, 0x0008) := by decide

/-! ### Other vectors -/

/-- V85 to V88: the refresh branch. -/
theorem test_refresh_target :
    refreshTarget Config.cfgA 39995 = 40000 ∧ refreshTarget Config.cfgA 39996 = 40000 ∧
    refreshTarget Config.cfgA 39998 = 40002 ∧ refreshTarget Config.cfgA 65534 = 2 := by decide

/-- Section 2.3: the trims truncate toward zero. -/
theorem test_trims :
    minTrimOf Config.cfgA 1000 = -114 ∧ minTrimOf Config.cfgA 545 = 0 ∧ minTrimOf Config.cfgA 549 = -1 ∧
    minTrimOf Config.cfgA 1057 = -128 ∧ maxTrimOf Config.cfgA 2915 = -128 ∧ maxTrimOf Config.cfgA 2916 = -129 ∧
    ¬ calOK Config.cfgA (minTrimOf Config.cfgA 32) 0 ∧ ¬ calOK Config.cfgA 0 (maxTrimOf Config.cfgA 1888) := by decide

/-- V103 and V104: a later record sets its bit and keeps FIRST. -/
theorem test_records :
    recordStatus .fltBus (recordStatus .fltCal 0x0304) = 0x030E ∧ recordStatus .errCmd 0x0101 = 0x0101 := by decide

/-- V109, V110, V55: the windows. -/
theorem test_windows :
    (trimmed.regval 0x104, trimmed.regval 0x106, trimmed.regval 0x900, trimmed.regval 0x902) =
      (3000, 0x648E, 0x000C, 0) := by decide

/-- A CREATE runs as the first instruction after reset (log 4). -/
theorem test_withFetchWord :
    (nextOf (step (State.reset.withFetchWord 16 0x1000))).map (fun s => (s.channelCount, s.pending)) =
      some (1, []) := by decide

/-! ### Witnesses: states and operands that meet the hypotheses of the statements together, at the ends of the ranges -/

/-- The machine's invariant holds of the states the witnesses use: a frame's start and end, a pulse, reset. -/
theorem inv_frameStart : (served (-1) 40000).Inv := by constructor <;> decide
theorem inv_driving : driving.Inv := by constructor <;> decide
theorem inv_lastSlot : (served 1 39995).Inv := by constructor <;> decide
theorem inv_lastSlot_late : (served 1 39996).Inv := by constructor <;> decide
theorem inv_created : created.Inv := by constructor <;> decide
theorem inv_reset : State.reset.Inv := by constructor <;> decide

/-- OP 8 and OP 9, X with ATTACH and with DETACH, RSV, an ID with NOP. -/
theorem witness_WordsDecodeByTheirFields :
    legal 0x80FF ∧ ¬ legal 0x9000 ∧ legal 0x2100 ∧ ¬ legal 0x3100 ∧ ¬ legal 0x2200 ∧ ¬ legal 0x0001 ∧
    (0x80FF : Word).toNat / 4096 = 8 ∧ (0x80FF : Word).toNat / 512 % 8 = 0 ∧ (0x80FF : Word).toNat / 256 % 2 = 0 ∧
    (0xFF : ChannelId).toNat = (0x80FF : Word).toNat % 256 := by decide

theorem witness_DecodeInvertsEncode :
    Instr.wf Config.cfgA (.attach true 0xFF) = true ∧ encode (.attach true 0xFF) = some 0x21FF ∧
    Instr.wf Config.cfgA (.illegal 0xFFFF) = true ∧ encode (.illegal 0xFFFF) = some 0xFFFF := by decide

theorem witness_ByteImagesAreLittleEndian : 0x024 % 2 = 0 ∧ State.reset.regByte 0x025 = 0xFF := by decide

/-- One state for each clause: an idle unit with each kind of move, and a busy one. -/
theorem witness_StepRunsTheDecodedInstruction :
    created.cfg.wf ∧ created.cu = .idle ∧
    (∃ rest, { created with pending := [.hostWrite 0x000 2 0x1000] }.pending = .hostWrite 0x000 2 0x1000 :: rest) ∧
    (∃ rest, { created with pending := [.hostRead 0x024 2] }.pending = .hostRead 0x024 2 :: rest) ∧
    (∃ rest, { created with pending := [.hostWrite 0x002 2 5] }.pending = .hostWrite 0x002 2 5 :: rest) ∧
    (∃ rest, { created with pending := [.tick 0] }.pending = .tick 0 :: rest) ∧
    (∃ rest, { created with pending := [.service 0] }.pending = .service 0 :: rest) ∧
    (∃ rest, { created with pending := [.microStep], cu := .busy 0x1000 2 0 }.pending = .microStep :: rest) ∧
    (∃ rest, { created with pending := [.microStep] }.pending = .microStep :: rest) ∧
    created.pending = [] := by
  refine ⟨by decide, rfl, ?_, ?_, ?_, ?_, ?_, ?_, ?_, rfl⟩ <;> exact ⟨_, rfl⟩

/-- CREATE at its yield, with the host's next access waiting. -/
def waiting : State := { created with pending := [.hostRead 0x008 2], cu := .busy 0x1000 2 0 }

theorem witness_StalledHostWaits :
    waiting.cfg.wf ∧ waiting.cu = .busy 0x1000 2 0 ∧ waiting.pending = .hostRead 0x008 2 :: [] ∧
    ∃ s', step waiting = .next s' := by
  exact ⟨by decide, rfl, rfl, exists_next (by decide)⟩

theorem witness_CommandCompletesInItsMicroSteps :
    created.cfg.wf ∧ created.cu = .idle ∧
    { created with pending := [.hostWrite 0x000 2 0x2000, .hostRead 0x008 2] }.pending =
      .hostWrite 0x000 2 0x2000 :: [.hostRead 0x008 2] ∧
    decode 0x2000 = .attach false 0 ∧ decode 0x3000 = .detach 0 ∧ decode 0x1000 = .create ∧
    decode 0x4000 = .write 0 := by decide

theorem witness_OnlyWellFormedConfigurationsRun :
    ¬ { State.reset with cfg := { Config.cfgA with numTimers := 0 } }.cfg.wf := by decide

/-- The first and the last channel of CFG-B. -/
theorem witness_ChannelsPartitionOverTimers :
    (State.resetOf Config.cfgB).cfg.wf ∧ 0 < Config.cfgB.maxChannels ∧ 47 < Config.cfgB.maxChannels := by decide

/-- The ends of the clauses in CFG-B: channel 47, timer 3, pin 19, word 15. -/
theorem witness_ResetHoldsTheTable :
    Config.cfgB.wf ∧ 47 < Config.cfgB.maxChannels ∧ 3 < Config.cfgB.numTimers ∧ 19 < Config.cfgB.numPins ∧
    (State.resetOf Config.cfgB).regval (0x100 + 8 * 47 + 7) = 0 ∧
    (State.resetOf Config.cfgB).regval (0x020 + 8 * 3 + 4) = 0xFF00 ∧
    (State.resetOf Config.cfgB).regval (0x920 + 2 * 15) = 0 := by decide

theorem witness_ResetMeetsTheInvariant : Config.cfgA.wf ∧ Config.cfgB.wf := by decide

/-- A state of the invariant whose step answers a next state: the service that starts a frame. -/
theorem witness_EveryStepKeepsTheInvariant :
    { served (-1) 40000 with pending := [.service 0] }.Inv ∧
    ∃ s', step { served (-1) 40000 with pending := [.service 0] } = .next s' := by
  exact ⟨by constructor <;> decide, exists_next (by decide)⟩

theorem witness_InvariantStatesNeverStop :
    { driving with pending := [.service 0] }.Inv ∧ 0 < { driving with pending := [.service 0] }.cfg.numTimers := by
  exact ⟨by constructor <;> decide, by decide⟩

/-- A step from a state in which every sticky bit is set. -/
theorem witness_OnlyResetClearsStickyState :
    (fun s : State => (s.timer 0).trun = true ∧ (s.timer 0).ovr = true ∧ s.modeOf 2 = true ∧ statusFirst s.status ≠ 0 ∧
      ∃ s', step s = .next s')
    { board [Channel.reset] { Timer.reset with trun := true, ovr := true, ocie := true } with
      status := 0x0510, pending := [.hostWrite 0x000 2 0x3000] } := by
  exact ⟨by decide, by decide, by decide, by decide, exists_next (by decide)⟩

/-- The ends of the trims, and calibrations just outside. -/
theorem witness_LegalCalibrations :
    Config.cfgA.wf ∧ calOK Config.cfgA (-128) 127 ∧ calOK Config.cfgA 127 (-128) ∧ ¬ calOK Config.cfgA 128 0 ∧
    ¬ calOK Config.cfgA 0 128 ∧ ¬ calOK Config.cfgA (-129) 0 ∧ ¬ calOK Config.cfgA 0 (-129) :=
  ⟨by decide, by decide, by decide, by decide, by decide, by decide, by decide⟩

/-- The envelope 1000 to 2000 us; values at its ends and one step outside them. -/
theorem witness_WidthsStayInTheEnvelope :
    (Config.cfgA.minPulseWidth - 4 * (trimmed.chan 0).minTrim.toInt : Int) = 1000 ∧
    (Config.cfgA.maxPulseWidth - 4 * (trimmed.chan 0).maxTrim.toInt : Int) = 2000 ∧
    trimmed.clampUs 0 999 = 1000 ∧ trimmed.clampUs 0 1000 = 1000 ∧ trimmed.clampUs 0 2000 = 2000 ∧
    trimmed.clampUs 0 2001 = 2000 ∧ trimmed.degToUs 0 0 = 1000 ∧ trimmed.degToUs 0 180 = 2000 := by decide

/-- The least and the greatest word of OP 0 that is no NOP. -/
theorem witness_NopChangesNothing :
    created.cu = .idle ∧ (0x0001 : Word).toNat < 0x1000 ∧ (0x0001 : Word) ≠ 0 ∧ (0x0FFF : Word).toNat < 0x1000 ∧
    (0x0FFF : Word) ≠ 0 := by decide

/-- A first record and a later one. -/
theorem witness_IllegalWordsOnlyRecord :
    State.reset.cu = .idle ∧ ¬ legal 0x9000 ∧ State.reset.status.extractLsb' 8 4 = 0 ∧
    { State.reset with status := 0x0304 }.status.extractLsb' 8 4 ≠ 0 := by decide

/-- One free entry and none; the yield. -/
theorem witness_CreateCountsThenSetsTheWidth :
    (created.cu = .idle ∧ created.channelCount.toNat < created.cfg.maxChannels) ∧
    { full with channelCount := 11 }.channelCount.toNat < full.cfg.maxChannels ∧
    (full.cu = .idle ∧ full.cfg.maxChannels ≤ full.channelCount.toNat) ∧
    waiting.cu = .busy 0x1000 2 0 ∧ 1 ≤ waiting.cfg.prescale := by decide

theorem witness_CreatesReturnIncreasingIds :
    Config.cfgA.wf ∧ 0 ≤ Config.cfgA.maxChannels ∧ 12 ≤ Config.cfgA.maxChannels := by
  decide

/-- X = 0 and X = 1, at the last pin of CFG-A (V55, V56). -/
theorem witness_AttachConfiguresPinAndTrims :
    (fun s : State => s.cu = .idle ∧ s.valid 0 ∧ s.arg0.toNat < s.cfg.numPins ∧
      calOK s.cfg (Int.tdiv (s.cfg.minPulseWidth - s.arg1.toInt) 4) (Int.tdiv (s.cfg.maxPulseWidth - s.arg2.toInt) 4) ∧
      calOK s.cfg (Int.tdiv (s.cfg.minPulseWidth - s.cfg.minPulseWidth) 4)
        (Int.tdiv (s.cfg.maxPulseWidth - s.cfg.maxPulseWidth) 4))
    { created with arg0 := 19, arg1 := 1000, arg2 := 2000 } := by decide

/-- An idle timer, a timer with an active channel, and the last micro-step. -/
theorem witness_AttachInitialisesThenActivates :
    (fun s : State => s.cu = .busy (BitVec.ofNat 16 (0x2000 + 0x100 * true.toNat + (0 : ChannelId).toNat)) 2 0 ∧
      ∀ j, j < s.cfg.maxChannels → j / s.cfg.channelsPerTimer = 0 → (s.chan j).isActive = false)
      { created with cu := .busy 0x2100 2 0 } ∧
    (fun s : State => s.cu = .busy (BitVec.ofNat 16 (0x2000 + 0x100 * false.toNat + (1 : ChannelId).toNat)) 2 1 ∧
      0 < s.cfg.maxChannels ∧ 0 / s.cfg.channelsPerTimer = 1 / s.cfg.channelsPerTimer ∧ (s.chan 0).isActive = true)
      { driving with cu := .busy 0x2001 2 1 } ∧
    { created with cu := .busy 0x2100 3 0 }.cu = .busy 0x2100 3 0 := by decide

/-- The first pin out of range, and the first calibration out of range on the last pin (V57, V58). -/
theorem witness_FaultedAttachOnlyRecords :
    (fun s : State => s.cu = .idle ∧ s.valid 0 ∧ s.cfg.numPins ≤ s.arg0.toNat) { created with arg0 := 20 } ∧
    (fun s : State => s.cu = .idle ∧ s.valid 0 ∧ s.arg0.toNat < s.cfg.numPins ∧
      ¬ calOK s.cfg (Int.tdiv (s.cfg.minPulseWidth - s.arg1.toInt) 4) (Int.tdiv (s.cfg.maxPulseWidth - s.arg2.toInt) 4))
      { created with arg0 := 19, arg1 := 32, arg2 := 2400 } := by decide

theorem witness_DetachShutsDownAnIdleTimer :
    (created.cu = .idle ∧ created.valid 0 ∧ ¬ created.valid 1) ∧
    (fun s : State => s.cu = .busy (BitVec.ofNat 16 (0x3000 + (0 : ChannelId).toNat)) 2 0 ∧
      ∀ j, j < s.cfg.maxChannels → j / s.cfg.channelsPerTimer = 0 → (s.chan j).isActive = false)
      { created with cu := .busy 0x3000 2 0 } ∧
    (fun s : State => s.cu = .busy (BitVec.ofNat 16 (0x3000 + (0 : ChannelId).toNat)) 2 0 ∧
      1 < s.cfg.maxChannels ∧ 1 / s.cfg.channelsPerTimer = 0 ∧ (s.chan 1).isActive = true)
      { driving with cu := .busy 0x3000 2 0 } := by decide

theorem witness_DetachTwiceIsDetachOnce : driving.cu = .idle ∧ driving.valid 0 := by decide

/-- A tick and a service of a disabled timer. -/
theorem witness_DisabledTimerIsNotServed :
    (∀ i ∈ [Instr.tick 0, .service 0], isEvent i = true) ∧ ((counting 3 4 false true).timer 0).ocie = false ∧
    ∃ s', execList [.tick 0, .service 0] (counting 3 4 false true) = .next s' := by
  exact ⟨by decide, by decide, exists_next (by decide)⟩

theorem witness_WriteUsStoresTheClampedWidth :
    trimmed.cfg.wf ∧ trimmed.cu = .idle ∧ trimmed.valid 0 ∧
    calOK trimmed.cfg (trimmed.chan 0).minTrim.toInt (trimmed.chan 0).maxTrim.toInt ∧ ¬ trimmed.valid 1 ∧
    calOK trimmed.cfg (trimmed.chan 1).minTrim.toInt (trimmed.chan 1).maxTrim.toInt := by decide

/-- The two sides of the threshold, and the clamps of the degrees. -/
theorem witness_WriteMapsDegreesBelowTheThreshold :
    trimmed.cfg.wf ∧ trimmed.cu = .idle ∧ trimmed.valid 0 ∧
    calOK trimmed.cfg (trimmed.chan 0).minTrim.toInt (trimmed.chan 0).maxTrim.toInt ∧
    { trimmed with arg0 := 543 }.arg0.toInt < (trimmed.cfg.minPulseWidth : Int) ∧
    (trimmed.cfg.minPulseWidth : Int) ≤ { trimmed with arg0 := 544 }.arg0.toInt ∧
    { trimmed with arg0 := 0xFFFF }.arg0.toInt < 0 := by decide

theorem witness_ReadReturnsDegrees :
    trimmed.cu = .idle ∧ ¬ trimmed.valid 1 ∧ trimmed.valid 0 ∧ 1 ≤ trimmed.cfg.cycPerUs ∧
    (trimmed.cfg.minPulseWidth - 4 * (trimmed.chan 0).minTrim.toInt : Int) <
      trimmed.cfg.maxPulseWidth - 4 * (trimmed.chan 0).maxTrim.toInt := by decide

/-- The last valid id and the first that is not. -/
theorem witness_ReadUsAndAttachedResults :
    driving.cu = .idle ∧ 1 ≤ driving.cfg.cycPerUs ∧ driving.valid 1 ∧ ¬ driving.valid 2 := by decide

/-- The first id that is not valid, the last one there is, and a full table. -/
theorem witness_InvalidIdsAreNoOps :
    created.cu = .idle ∧ created.channelCount.toNat ≤ (1 : ChannelId).toNat ∧
    created.channelCount.toNat ≤ (0xFF : ChannelId).toNat ∧ full.cu = .idle ∧
    full.cfg.maxChannels ≤ full.channelCount.toNat := by decide

/-- The ends of the envelope 1000 to 2000 us; CYC_PER_US is a multiple of PRESCALE. -/
theorem witness_MicrosecondsRoundTrip :
    trimmed.cfg.wf ∧ trimmed.cu = .idle ∧ trimmed.valid 0 ∧ 0 < trimmed.ch.length ∧
    calOK trimmed.cfg (trimmed.chan 0).minTrim.toInt (trimmed.chan 0).maxTrim.toInt ∧
    trimmed.effMin 0 ≤ { trimmed with arg0 := 1000 }.arg0.toInt ∧
    { trimmed with arg0 := 2000 }.arg0.toInt ≤ trimmed.effMax 0 ∧ trimmed.cfg.cycPerUs % trimmed.cfg.prescale = 0 := by
  decide

/-- 0 and 180 degrees. -/
theorem witness_DegreesRoundTrip :
    trimmed.cfg.wf ∧ trimmed.cu = .idle ∧ trimmed.valid 0 ∧ 0 < trimmed.ch.length ∧
    calOK trimmed.cfg (trimmed.chan 0).minTrim.toInt (trimmed.chan 0).maxTrim.toInt ∧
    180 < trimmed.cfg.minPulseWidth ∧ trimmed.cfg.cycPerUs % trimmed.cfg.prescale = 0 ∧ trimmed.cfg.readBiasUs = 0 ∧
    180 ≤ trimmed.effMax 0 - trimmed.effMin 0 ∧ 0 ≤ { trimmed with arg0 := 0 }.arg0.toInt ∧
    { trimmed with arg0 := 180 }.arg0.toInt ≤ 180 := by decide

theorem witness_MaskedCommandsRunAlike :
    isCommand .create = true ∧ (∃ s', exec .create created = .next s') ∧ created.gie = false ∧
    0 < created.cfg.numTimers := by
  exact ⟨rfl, exists_next (by decide), rfl, by decide⟩

theorem witness_CommandsWriteOnlyTheirOwn :
    isCommand (.write 0) = true ∧ ∃ s', exec (.write 0) created = .next s' := by
  exact ⟨rfl, exists_next (by decide)⟩

/-- The first and the last code; a first record and a later one. -/
theorem witness_FirstRecordIsKept :
    FaultCode.errCmd.number = 1 ∧ FaultCode.fltOvr.number = 5 ∧ State.reset.status.extractLsb' 8 4 = 0 ∧
    { State.reset with status := 0x0304 }.status.extractLsb' 8 4 ≠ 0 := by decide

/-- The last supported offset, and the accesses next to it that are not supported. -/
theorem witness_HostReadHasNoSideEffect :
    State.reset.cu = .idle ∧ supported 0xFFE 2 ∧ ¬ supported 0xFFF 2 ∧ ¬ supported 0x1000 2 ∧ ¬ supported 0xFFE 1 ∧
    ¬ supported 0xFFE 4 := by decide

theorem witness_HostWriteReachesFiveRegisters :
    State.reset.cu = .idle ∧ 0x008 % 2 = 0 ∧ 0x008 ∉ [0x000, 0x002, 0x004, 0x006, 0x00C] ∧
    0xFFE ∉ [0x000, 0x002, 0x004, 0x006, 0x00C] ∧ 0xFFE % 2 = 0 ∧ 0xFFE < 0x1000 := by decide

/-- An access that records, an ATTACH that records, one that yields, and the least and the greatest later micro-step. -/
theorem witness_OneRecordPerAccess :
    (∃ s', exec (.hostRead 0xFFF 2) State.reset = .next s') ∧
    (∃ s', exec (.hostWrite 0x000 2 0x2000) { created with arg0 := 20 } = .next s') ∧
    (∃ s', exec (.hostWrite 0x000 2 0x2000) created = .next s') ∧
    (waiting.cu = .busy 0x1000 2 0 ∧ ∃ s', exec (decode 0x1000) waiting = .next s') ∧
    ∃ s', exec (decode 0x2000) { created with cu := .busy 0x2000 3 0 } = .next s' := by
  exact ⟨exists_next (by decide), exists_next (by decide), exists_next (by decide), ⟨rfl, exists_next (by decide)⟩,
    exists_next (by decide)⟩

/-- The ends of the reserved ranges, in a state whose registers are not all 0. -/
theorem witness_ControlRegistersRead :
    (fun s : State => s.regval 0x012 = 0 ∧ s.regval 0x01F = 0 ∧ s.regval 0x060 = 0 ∧ s.regval 0x0FF = 0 ∧
      s.regval 0x8F8 = 0 ∧ s.regval 0x8FF = 0 ∧ s.regval 0x940 = 0 ∧ s.regval 0xFFF = 0 ∧ s.regval 0x010 = 7)
    { driving with finfo := 7 } := by decide

/-- The last timer and the first the configuration does not have, with channel blocks 11, 12 and 254; channel 1 is not
created. -/
theorem witness_BlocksShowTimersAndChannels :
    created.cfg.wf ∧ 0 < created.cfg.numTimers ∧ created.cfg.numTimers ≤ 1 ∧ created.regval (0x020 + 8 * 7 + 7) = 0 ∧
    11 < created.cfg.maxChannels ∧ created.cfg.maxChannels ≤ 12 ∧ created.cfg.maxChannels ≤ 254 ∧
    created.channelCount.toNat ≤ 1 ∧ created.Inv := by
  exact ⟨by decide, by decide, by decide, by decide, by decide, by decide, by decide, by decide, inv_created⟩

/-- The last pin and the first that does not exist. -/
theorem witness_GpioWindowShowsTheLatches :
    created.mode.length = created.cfg.numPins ∧ created.level.length = created.cfg.numPins ∧
    16 * 1 + 3 < created.cfg.numPins ∧ created.cfg.numPins ≤ 16 * 1 + 4 := by decide

/-- Each clause: a standing counter, a count, a match that is not an overrun, an overrun. -/
theorem witness_TickCountsAndMatches :
    (0 < created.cfg.numTimers ∧ 0 < created.tm.length ∧ (created.timer 0).trun = false) ∧
    (fun x : Timer => x.trun = true ∧ x.tcnt + 1 ≠ x.ocr) ((counting 3 5 true false).timer 0) ∧
    (fun x : Timer => x.trun = true ∧ x.tcnt + 1 = x.ocr ∧ x.ocf = false) ((counting 0xFFFF 0 true false).timer 0) ∧
    (fun x : Timer => x.trun = true ∧ x.tcnt + 1 = x.ocr ∧ x.ocie = false) ((counting 3 4 false true).timer 0) ∧
    (fun x : Timer => x.trun = true ∧ x.tcnt + 1 = x.ocr ∧ x.ocf = true ∧ x.ocie = true)
      ((counting 3 4 true true).timer 0) := by decide

theorem witness_SubStepEffects :
    0 < (counting 4 4 false true).cfg.numTimers ∧ ((counting 4 4 false true).timer 0).ocie = false ∧
    ((counting 4 4 true true).timer 0).ocf = true ∧ ((counting 4 4 true true).timer 0).ocie = true := by decide

/-- The distances of V78, V79 and V80. -/
theorem witness_NextMatchDistance :
    (fun s : State => 0 < s.cfg.numTimers ∧ 0 < s.tm.length ∧ (s.timer 0).trun = true ∧
      65486 = ((s.timer 0).ocr - (s.timer 0).tcnt - 1).toNat + 1) (counting 100 50 true false) ∧
    (fun s : State => 65536 = ((s.timer 0).ocr - (s.timer 0).tcnt - 1).toNat + 1) (counting 7 7 true false) ∧
    (fun s : State => 1 = ((s.timer 0).ocr - (s.timer 0).tcnt - 1).toNat + 1) (counting 7 8 true false) := by decide

/-- The first timer that CFG-A does not have, and the slots just outside [-1, 12). -/
theorem witness_EventsStopOffTheConfiguration :
    created.cfg.numTimers ≤ 1 ∧ 0 < (served 12 5).cfg.numTimers ∧
    serviceEnabled ((served 12 5).timer 0) (served 12 5).gie = true ∧
    ((served 12 5).cfg.channelsPerTimer : Int) ≤ ((served 12 5).timer 0).activeSlot.toInt ∧
    serviceEnabled ((served (-2) 5).timer 0) (served (-2) 5).gie = true ∧
    ((served (-2) 5).timer 0).activeSlot.toInt < -1 := by decide

theorem witness_ServiceNeedsAllThreeEnables :
    0 < driving.cfg.numTimers ∧ ((counting 3 5 true false).timer 0).ocf = false ∧
    ((counting 3 5 false true).timer 0).ocie = false ∧ { driving with gie := false }.gie = false := by decide

/-- V81. -/
theorem witness_ServiceStartsTheFrame :
    (fun s : State => 0 < s.cfg.numTimers ∧ (s.timer 0).ocf = true ∧ (s.timer 0).ocie = true ∧ s.gie = true ∧
      (s.timer 0).activeSlot = 0xFF ∧ 0 < s.cfg.channelsPerTimer ∧
      0 * s.cfg.channelsPerTimer < s.channelCount.toNat) (served (-1) 40000) := by decide

/-- V82, and the last slot there is. -/
theorem witness_ServiceMovesToTheNextSlot :
    (fun s : State => 0 < s.cfg.numTimers ∧ s.cfg.channelsPerTimer ≤ 127 ∧ (s.timer 0).ocf = true ∧
      (s.timer 0).ocie = true ∧ s.gie = true ∧ (s.timer 0).activeSlot = BitVec.ofNat 8 0 ∧
      0 + 1 < s.cfg.channelsPerTimer ∧ 0 + 1 < s.channelCount.toNat) driving ∧
    (fun s : State => (s.timer 0).activeSlot = BitVec.ofNat 8 10 ∧ 10 + 1 < s.cfg.channelsPerTimer ∧
      10 + 1 < s.channelCount.toNat) { served 10 5 with channelCount := 12 } := by decide

/-- V83 with the margin just fitting and just not (V85, V86), and the tail from REFRESH_WAIT with no channel. -/
theorem witness_ServiceEntersTheRefreshTail :
    (fun s : State => 0 < s.cfg.numTimers ∧ 1 ≤ s.cfg.prescale ∧ (s.timer 0).ocf = true ∧ (s.timer 0).ocie = true ∧
      s.gie = true ∧ (s.timer 0).activeSlot.toInt = 1 ∧ (1 : Int) < s.cfg.channelsPerTimer ∧
      ¬ (0 * s.cfg.channelsPerTimer + (1 + 1) < s.channelCount.toNat) ∧
      (s.timer 0).tcnt.toNat + s.cfg.safetyMarginTicks < 40000) (served 1 39995) ∧
    (fun s : State => (s.timer 0).activeSlot.toInt = 1 ∧ ¬ (s.timer 0).tcnt.toNat + s.cfg.safetyMarginTicks < 40000)
      (served 1 39996) ∧
    (fun s : State => (s.timer 0).activeSlot.toInt = -1 ∧ ¬ 0 < s.channelCount.toNat)
      { served (-1) 5 with channelCount := 0 } := by decide

theorem witness_EventsLeaveTheRegistryAlone :
    (∃ s', exec (.service 0) driving = .next s') ∧ ∃ s', exec (.tick 0) driving = .next s' := by
  exact ⟨exists_next (by decide), exists_next (by decide)⟩

/-- Two states that differ in their levels, operands and status. -/
theorem witness_TimersAreIndependent :
    (fun s1 s2 : State => s1.cfg = s2.cfg ∧ s1.channelCount = s2.channelCount ∧ s1.gie = s2.gie ∧
      s1.timer 0 = s2.timer 0 ∧ 0 < s1.tm.length ∧ 0 < s2.tm.length ∧
      (∀ k, k < s1.cfg.channelsPerTimer → s1.chan (s1.channelAt 0 k) = s2.chan (s2.channelAt 0 k)) ∧
      (∃ s', exec (.service 0) s1 = .next s') ∧ ∃ s', exec (.service 0) s2 = .next s')
    driving { driving with level := State.reset.level, arg0 := 5, status := 0x0101 } := by
  exact ⟨by decide, by decide, by decide, by decide, by decide, by decide, by decide, exists_next (by decide),
    exists_next (by decide)⟩

/-- A new width for the channel whose pulse is running. -/
theorem witness_WidthsAreReadAtThePulseStart :
    driving.channelAt 0 ((driving.timer 0).activeSlot.toInt + 1).toNat ≠ 0 ∧
    ∃ s', exec (.service 0) driving = .next s' := by
  exact ⟨by decide, exists_next (by decide)⟩

theorem witness_ServiceKeepsOnePinHigh :
    driving.Inv ∧ 0 < driving.cfg.numTimers ∧
    (∀ i, i < driving.channelCount.toNat → ∀ j, j < driving.channelCount.toNat →
      (driving.chan i).pin = (driving.chan j).pin → i = j) ∧
    (∀ i, i < driving.channelCount.toNat → driving.levelOf (driving.chan i).pin.toNat = true →
      (driving.timer 0).slot = driving.slotOf i) ∧
    (∃ s', exec (.service 0) driving = .next s') ∧ ∃ s', exec (.tick 0) driving = .next s' := by
  exact ⟨inv_driving, by decide, by decide, by decide, exists_next (by decide), exists_next (by decide)⟩

/-- A pulse of 1996 ticks with any latency up to the greatest; and a run from the service that starts it, of one tick and
one change by another agent, a new width for the channel. -/
theorem witness_PulseLastsWidthPlusLatency :
    (served (-1) 40000).Inv ∧
    (fun s : State => 0 < s.cfg.numTimers ∧ serviceEnabled (s.timer 0) s.gie = true ∧
      0 = ((s.timer 0).activeSlot.toInt + 1).toNat ∧ s.slotExists 0 0 ∧ 0 = s.channelAt 0 0 ∧
      (s.chan 0).isActive = true ∧ 1996 = (s.chan 0).pulseTicks.toNat ∧ 65535 < 65536)
      (served (-1) 40000) ∧
    ∃ s1 s2, exec (.service 0) (served (-1) 40000) = .next s1 ∧ exec (.tick 0) s1 = .next s2 ∧
      Elapsed (fun a b => a.KeepsPulse 0 0 b) 0 1 s1 (s2.setChan 0 { s2.chan 0 with pulseTicks := 5 }) := by
  refine ⟨inv_frameStart, by decide, (served (-1) 40000).service 0, ((served (-1) 40000).service 0).tick 0, rfl, rfl,
    ((Elapsed.start _).tick rfl).other (by decide)⟩

/-- The margin just fits, and just does not; and a run from the first service, of one tick and GIE written. -/
theorem witness_RefreshTailFillsTheFrame :
    ((served 1 39995).Inv ∧ (served 1 39996).Inv) ∧
    (fun s : State => 0 < s.cfg.numTimers ∧ serviceEnabled (s.timer 0) s.gie = true ∧
      ¬ s.slotExists 0 ((s.timer 0).activeSlot.toInt + 1).toNat ∧ (nextOf (exec (.service 0) s)).isSome = true)
      (served 1 39995) ∧
    (fun s : State => serviceEnabled (s.timer 0) s.gie = true ∧
      ¬ s.slotExists 0 ((s.timer 0).activeSlot.toInt + 1).toNat ∧ (nextOf (exec (.service 0) s)).isSome = true)
      (served 1 39996) ∧
    ∃ s1 s2, exec (.service 0) (served 1 39995) = .next s1 ∧ exec (.tick 0) s1 = .next s2 ∧
      Elapsed (fun a b => a.KeepsTimer 0 b) 0 1 s1 { s2 with gie := false } := by
  exact ⟨⟨inv_lastSlot, inv_lastSlot_late⟩, by decide, by decide, (served 1 39995).service 0,
    ((served 1 39995).service 0).tick 0, rfl, rfl, ((Elapsed.start _).tick rfl).other (by decide)⟩

/-- A timer just initialised, and one with a match pending. -/
theorem witness_EnabledTimerIsServedAgain :
    driving.Inv ∧ 0 < driving.cfg.numTimers ∧ (driving.timer 0).ocie = true ∧ driving.gie = true := by
  exact ⟨inv_driving, by decide, by decide, by decide⟩

/-- An output and an input, the last pin of CFG-A, an active channel, and a step that changes a level. -/
theorem witness_PinOutShowsTheLevelOfAnOutput :
    driving.modeOf 2 = true ∧ driving.pinOut 2 = some true ∧ driving.modeOf 1 = false ∧ driving.pinOut 1 = none ∧
    19 < driving.level.length ∧ (driving.Inv ∧ 1 < driving.cfg.maxChannels ∧ (driving.chan 1).isActive = true) ∧
    ∃ s', step { driving with pending := [.service 0] } = .next s' ∧ s'.level ≠ driving.level := by
  exact ⟨by decide, by decide, by decide, by decide, by decide, ⟨inv_driving, by decide, by decide⟩,
    { driving.service 0 with pending := [] }, rfl, by decide⟩

/-- ATTACH's last micro-step takes up pin 3, which is low, while the pulse of channel 0 is running on pin 2. -/
def joining : State :=
  { driving with
    ch := driving.ch.set 1 { driving.chan 1 with isActive := false }, cu := .busy 0x2001 3 1, pending := [.microStep] }

/-- The premises with a service, and with a pin taken up. -/
theorem witness_EveryStepKeepsOnePinHigh :
    (driving.Inv ∧ joining.Inv) ∧
    (∀ i, i < 2 → ∀ j, j < 2 → (driving.chan i).pin = (driving.chan j).pin → i = j) ∧
    (∀ i, i < 2 → (driving.chan i).isActive = true → driving.levelOf (driving.chan i).pin.toNat = true →
      (driving.timer 0).slot = driving.slotOf i) ∧
    (∀ i, i < 2 → driving.timerOf i = 0) ∧
    (∃ s', step { driving with pending := [.service 0] } = .next s' ∧ ∀ i, i < 2 → s'.chan i = driving.chan i) ∧
    ∃ s', step joining = .next s' ∧ (joining.chan 1).isActive = false ∧ (s'.chan 1).isActive = true ∧
      joining.levelOf (s'.chan 1).pin.toNat = false := by
  exact ⟨⟨inv_driving, by constructor <;> decide⟩, by decide, by decide, by decide,
    ⟨{ driving.service 0 with pending := [] }, rfl, by decide⟩,
    { joining.attachActivate 1 with pending := [] }, rfl, by decide, by decide, by decide⟩

end Sys2Proof.Tests
end

section
/-! The channel partition (10_state.md R27), the reset table with its host-read patterns (R44), and the pins' output
(R36). -/

namespace Sys2Proof.Machine

/-! ### The channel partition -/

namespace State

/-- A channel of the configuration is one of a timer of the configuration. -/
theorem timerOf_lt {s : State} {i : Nat} (h : i < s.cfg.maxChannels) : s.timerOf i < s.cfg.numTimers := by
  rw [Config.maxChannels, Nat.mul_comm] at h
  exact Nat.div_lt_of_lt_mul h

theorem slotOf_lt {s : State} (h : 1 ≤ s.cfg.channelsPerTimer) (i : Nat) : s.slotOf i < s.cfg.channelsPerTimer :=
  Nat.mod_lt i h

/-- A channel is the one at its own timer and slot. -/
theorem channelAt_timerOf_slotOf (s : State) (i : Nat) : s.channelAt (s.timerOf i) (s.slotOf i) = i :=
  Nat.div_add_mod' i s.cfg.channelsPerTimer

end State

/-- Settles O10: quotient and remainder by CHANNELS_PER_TIMER, whose product with NUM_TIMERS bounds the channels. -/
theorem channelsPartitionOverTimers : Obligations.ChannelsPartitionOverTimers := by
  intro s i hwf hi
  obtain ⟨-, ⟨hslots, -⟩, -⟩ := hwf
  exact ⟨rfl, rfl, State.timerOf_lt hi, State.slotOf_lt hslots i, s.channelAt_timerOf_slotOf i⟩

/-! ### The register map by blocks (20_memory.md R61) -/

namespace State

variable (s : State)

theorem regval_timerBlock {t r : Nat} (ht : t < 8) (hr : r < 8) : s.regval (0x020 + 8 * t + r) = s.timerReg t r := by
  have hblock : (0x020 + 8 * t + r - 0x020) / 8 = t := by omega
  have hreg : (0x020 + 8 * t + r - 0x020) % 8 = r := by omega
  unfold regval
  repeat rw [if_neg (by omega)]
  rw [if_pos (by omega), hblock, hreg]

theorem regval_channelBlock {i r : Nat} (hi : i < 255) (hr : r < 8) :
    s.regval (0x100 + 8 * i + r) = s.channelReg i r := by
  have hblock : (0x100 + 8 * i + r - 0x100) / 8 = i := by omega
  have hreg : (0x100 + 8 * i + r - 0x100) % 8 = r := by omega
  unfold regval
  repeat rw [if_neg (by omega)]
  rw [if_pos (by omega), hblock, hreg]

theorem regval_modeWindow {k : Nat} (hk : k < 16) : s.regval (0x900 + 2 * k) = gpioWord s.mode k := by
  have hword : (0x900 + 2 * k - 0x900) / 2 = k := by omega
  unfold regval
  repeat rw [if_neg (by omega)]
  rw [if_pos (by omega), hword]

theorem regval_levelWindow {k : Nat} (hk : k < 16) : s.regval (0x920 + 2 * k) = gpioWord s.level k := by
  have hword : (0x920 + 2 * k - 0x920) / 2 = k := by omega
  unfold regval
  repeat rw [if_neg (by omega)]
  rw [if_pos (by omega), hword]

end State

/-- No latch set, so every word of the window reads 0 (20_memory.md R64). -/
@[simp] theorem gpioWord_replicate_false (n k : Nat) : gpioWord (List.replicate n false) k = 0 := by
  ext j hj
  simp [gpioWord]

/-! ### The reset state (10_state.md R44) -/

namespace State

variable (cfg : Config)

@[simp] theorem resetOf_cfg : (resetOf cfg).cfg = cfg := rfl

@[simp] theorem resetOf_chan (i : Nat) : (resetOf cfg).chan i = Channel.reset :=
  List.getElem?_getD_replicate_default_eq ..

@[simp] theorem resetOf_timer (t : Nat) : (resetOf cfg).timer t = Timer.reset :=
  List.getElem?_getD_replicate_default_eq ..

@[simp] theorem resetOf_modeOf (p : Nat) : (resetOf cfg).modeOf p = false :=
  List.getElem?_getD_replicate_default_eq ..

@[simp] theorem resetOf_levelOf (p : Nat) : (resetOf cfg).levelOf p = false :=
  List.getElem?_getD_replicate_default_eq ..

/-- Every register of a channel's block reads 0, the reserved ones too. -/
theorem resetOf_channelReg (i r : Nat) : (resetOf cfg).channelReg i r = 0 := by
  unfold channelReg
  rw [resetOf_chan]
  split
  · split <;> rfl
  · rfl

theorem resetOf_timerReg {t : Nat} (ht : t < cfg.numTimers) :
    (resetOf cfg).timerReg t 0 = 0 ∧ (resetOf cfg).timerReg t 2 = 0 ∧
      (resetOf cfg).timerReg t 4 = 0xFF00 := by
  have htstat : Timer.reset.tstat = 0xFF00 := by decide
  simp only [timerReg, resetOf_cfg, resetOf_timer, if_pos ht]
  exact ⟨rfl, rfl, htstat⟩

/-- CMD, the control registers and the odd offsets among them (R61, R67). -/
theorem resetOf_regval_control {off : Nat} (h : off ≤ 0x010) : (resetOf cfg).regval off = 0 := by
  interval_cases off <;> rfl

end State

/-- Settles O11: the tables are replicated reset entries, and each offset lies in the block that shows its entry. -/
theorem resetHoldsTheTable : Obligations.ResetHoldsTheTable := by
  rintro cfg s hwf rfl
  obtain ⟨⟨-, htimers⟩, -, hchannels, -⟩ := hwf
  refine ⟨?sizes, ?channels, ?timers, ?pins, ?windows, ?registers, fun off => State.resetOf_regval_control cfg⟩
  case sizes => simp [State.resetOf]
  case channels =>
    intro i hi
    refine ⟨State.resetOf_chan cfg i, fun r hr => ?_⟩
    rw [State.regval_channelBlock _ (by omega) hr, State.resetOf_channelReg]
  case timers =>
    intro t ht
    obtain ⟨htcnt, hocr, htstat⟩ := State.resetOf_timerReg cfg ht
    have hblock : ∀ r, r < 8 → (State.resetOf cfg).regval (0x020 + 8 * t + r) = (State.resetOf cfg).timerReg t r :=
      fun r => State.regval_timerBlock _ (by omega)
    exact ⟨State.resetOf_timer cfg t, (hblock 0 (by omega)).trans htcnt, (hblock 2 (by omega)).trans hocr,
      (hblock 4 (by omega)).trans htstat⟩
  case pins =>
    intro p _
    simp [State.pinOut]
  case windows =>
    intro k hk
    rw [State.regval_modeWindow _ hk, State.regval_levelWindow _ hk]
    exact ⟨gpioWord_replicate_false _ k, gpioWord_replicate_false _ k⟩
  case registers => exact ⟨rfl, rfl, rfl, rfl, rfl, rfl, rfl, rfl, rfl⟩

/-! ### Who writes a level (10_state.md R36) -/

/-- A part of the state that every micro-step of a command keeps is kept by the command. -/
theorem runCommand_keeps {α : Type} (part : State → α) {c : Word} {fs : List (State → State)} {s s' : State}
    (hfs : ∀ f ∈ fs, part (f s) = part s) (h : runCommand c fs s = .next s') : part s' = part s := by
  obtain ⟨k, f, hf, rfl, -⟩ := runCommand_next h
  exact hfs f (List.mem_of_getElem? hf)

/-- No word decodes to an access or an event (30_encoding.md R89). -/
theorem isCommand_decode (c : Word) : isCommand (decode c) = true := by
  unfold decode
  split
  · split <;> rfl
  · rfl

namespace State

variable (s : State)

@[simp] theorem storeUs_level (i : Nat) (v : Int) : (s.storeUs i v).level = s.level := rfl

@[simp] theorem createCount_level : s.createCount.level = s.level := by
  unfold createCount; split <;> rfl

@[simp] theorem createWidth_level : s.createWidth.level = s.level := rfl

@[simp] theorem attachConfigure_level (x : Bool) (id : ChannelId) : (s.attachConfigure x id).level = s.level := by
  simp only [attachConfigure]
  split_ifs <;> rfl

@[simp] theorem attachTimer_level (x : Bool) (id : ChannelId) : (s.attachTimer x id).level = s.level := by
  simp only [attachTimer]
  split <;> rfl

@[simp] theorem attachActivate_level (id : ChannelId) : (s.attachActivate id).level = s.level := rfl

@[simp] theorem detachDeactivate_level (id : ChannelId) : (s.detachDeactivate id).level = s.level := by
  unfold detachDeactivate; split <;> rfl

@[simp] theorem detachTimer_level (id : ChannelId) : (s.detachTimer id).level = s.level := by
  simp only [detachTimer]
  split <;> rfl

@[simp] theorem tick_level (t : Nat) : (s.tick t).level = s.level := by
  obtain ⟨-, h⟩ | ⟨-, -, ⟨-, h⟩ | ⟨-, -, h⟩ | ⟨-, -, h⟩⟩ := s.tick_cases t <;> rw [h] <;> rfl

end State

/-- No micro-step of a command writes a level. -/
theorem exec_command_level {i : Instr} {s s' : State} (hi : isCommand i = true) (h : exec i s = .next s') :
    s'.level = s.level := by
  cases i with
  | nop | create | attach | detach | read | readUs | attached | illegal =>
    exact runCommand_keeps State.level (by simp) h
  | write | writeUs =>
    refine runCommand_keeps State.level (fun f hf => ?_) h
    obtain rfl := List.mem_singleton.mp hf
    rw [State.done_level]
    split <;> simp
  | hostRead | hostWrite | tick | compareMatch | service | timerInit | timerShutdown => cases hi

theorem execTick_level {t : Nat} {s s' : State} (h : execTick t s = .next s') : s'.level = s.level := by
  obtain ⟨-, hs'⟩ := forTimer_next h
  cases hs'
  exact s.tick_level t

/-- A step that changes a level has a service at the head of the schedule. -/
theorem service_scheduled_of_step_level_ne {s s' : State} (h : step s = .next s') (hne : s'.level ≠ s.level) :
    ∃ t rest, s.pending = .service t :: rest := by
  obtain ⟨-, rest, hcases⟩ := step_next h
  obtain ⟨t, ⟨-, h⟩ | ⟨hp, -⟩⟩ | ⟨-, off, n, -, h⟩ | ⟨-, off, n, v, -, h⟩ | ⟨c, k, id, -, -, h⟩ | ⟨-, rfl⟩ := hcases
  · -- a tick
    exact absurd (execTick_level h) hne
  · -- a service
    exact ⟨t, rest, hp⟩
  · -- a host read
    obtain ⟨-, -, -, -, -, hlevel, -⟩ := execHostRead_next h
    exact absurd hlevel hne
  · -- a host write, of a register or of CMD
    obtain ⟨-, hcommand | ⟨-, -, -, -, hlevel, -⟩⟩ := execHostWrite_next h
    · exact absurd (exec_command_level (isCommand_decode v) hcommand) hne
    · exact absurd hlevel hne
  · -- a micro-step of the word in progress
    exact absurd (exec_command_level (isCommand_decode c) h) hne
  · -- an idle SPS standing still
    exact absurd rfl hne

theorem State.pinOut_output {s : State} {p : Nat} (h : s.modeOf p = true) : s.pinOut p = some (s.levelOf p) := if_pos h

theorem State.pinOut_input {s : State} {p : Nat} (h : s.modeOf p = false) : s.pinOut p = none := by
  simp [State.pinOut, h]

/-- Settles O59: the latch's own laws, the step that writes a level, and R45 (6) for an active channel's pin. -/
theorem pinOutShowsTheLevelOfAnOutput : Obligations.PinOutShowsTheLevelOfAnOutput := by
  refine ⟨fun s p => ⟨State.pinOut_output, State.pinOut_input⟩, fun s p q high hp => ?_,
    fun s s' => service_scheduled_of_step_level_ne, State.resetOf_levelOf, fun s i hinv hi ha => ?_⟩
  · simp [State.levelOf_setLevel, hp, eq_comm]
  · obtain ⟨-, hmode⟩ := hinv.activePins i hi ha
    exact State.pinOut_output hmode

end Sys2Proof.Machine
end

section
/-! The blocks of the timers and of the channels in the register map (20_memory.md R62, R63). -/

namespace Sys2Proof.Machine

/-- The number of a word put together from a high and a low part. -/
theorem toNat_append_eq_add {m n : Nat} (hi : BitVec m) (lo : BitVec n) :
    (hi ++ lo).toNat = hi.toNat * 2 ^ n + lo.toNat := by
  rw [BitVec.toNat_append, ← Nat.shiftLeft_add_eq_or_of_lt lo.isLt, Nat.shiftLeft_eq]

/-- TSTAT as a number: each flag at its bit, and activeSlot in the high byte (R62). -/
theorem Timer.toNat_tstat (tm : Timer) :
    tm.tstat.toNat =
      tm.ocie.toNat + 2 * tm.ocf.toNat + 4 * tm.ovr.toNat + 8 * tm.trun.toNat + 256 * tm.activeSlot.toNat := by
  simp only [tstat, toNat_append_eq_add, BitVec.toNat_ofBool, BitVec.toNat_ofNat]
  omega

namespace State

variable {s : State} {t i : Nat}

/-! ### One register of a block -/

theorem timerReg_tcnt (h : t < s.cfg.numTimers) : s.timerReg t 0 = (s.timer t).tcnt := if_pos h

theorem timerReg_ocr (h : t < s.cfg.numTimers) : s.timerReg t 2 = (s.timer t).ocr := if_pos h

theorem timerReg_tstat (h : t < s.cfg.numTimers) : s.timerReg t 4 = (s.timer t).tstat := if_pos h

theorem timerReg_reserved (h : t < s.cfg.numTimers) : s.timerReg t 6 = 0 := if_pos h

theorem timerReg_of_absent (h : s.cfg.numTimers ≤ t) (r : Nat) : s.timerReg t r = 0 := if_neg (by omega)

theorem toNat_channelReg_pin (h : i < s.cfg.maxChannels) : (s.channelReg i 0).toNat = (s.chan i).pin.toNat := by
  have hreg : s.channelReg i 0 = (s.chan i).pin.setWidth 16 := if_pos h
  rw [hreg, BitVec.toNat_setWidth_of_le (by decide)]

theorem toNat_channelReg_isActive (h : i < s.cfg.maxChannels) :
    (s.channelReg i 2).toNat = (s.chan i).isActive.toNat := by
  have hreg : s.channelReg i 2 = (BitVec.ofBool (s.chan i).isActive).setWidth 16 := if_pos h
  rw [hreg, BitVec.toNat_setWidth_of_le (by decide), BitVec.toNat_ofBool]

theorem channelReg_pulseTicks (h : i < s.cfg.maxChannels) : s.channelReg i 4 = (s.chan i).pulseTicks := if_pos h

theorem toNat_channelReg_trims (h : i < s.cfg.maxChannels) :
    (s.channelReg i 6).toNat = (s.chan i).minTrim.toNat + 256 * (s.chan i).maxTrim.toNat := by
  have hreg : s.channelReg i 6 = (s.chan i).maxTrim ++ (s.chan i).minTrim := if_pos h
  rw [hreg, toNat_append_eq_add]
  omega

theorem channelReg_of_absent (h : s.cfg.maxChannels ≤ i) (r : Nat) : s.channelReg i r = 0 := if_neg (by omega)

/-- The block of a channel at its reset values reads 0, whether the configuration has the channel or not. -/
theorem channelReg_of_chan_reset (h : s.chan i = Channel.reset) (r : Nat) : s.channelReg i r = 0 := by
  unfold channelReg
  rw [h]
  split
  · split <;> rfl
  · rfl

/-- R63: the block of a channel that is not created reads 0; a channel of the configuration is at its reset values
then (10_state.md R45), and any other has no block. -/
theorem Inv.channelReg_of_uncreated (hinv : s.Inv) (h : s.channelCount.toNat ≤ i) (r : Nat) : s.channelReg i r = 0 := by
  by_cases hi : i < s.cfg.maxChannels
  · exact channelReg_of_chan_reset (hinv.uncreated i hi h) r
  · exact channelReg_of_absent (by omega) r

end State

/-- Settles O42: an offset in the region of the blocks is one register of one block, and each register is known. -/
theorem blocksShowTimersAndChannels : Obligations.BlocksShowTimersAndChannels := by
  refine ⟨fun s t _ ht => ?timers, fun s i _ hi => ?channels⟩
  case timers =>
    have hread : ∀ r, r < 8 → s.regval (0x020 + 8 * t + r) = s.timerReg t r := fun _ => s.regval_timerBlock ht
    refine ⟨fun h => ⟨?tcnt, ?ocr, ?tstat, ?reserved⟩, fun h r hr => ?absent⟩
    case tcnt => exact (hread 0 (by decide)).trans (State.timerReg_tcnt h)
    case ocr => exact (hread 2 (by decide)).trans (State.timerReg_ocr h)
    case tstat => rw [hread 4 (by decide), State.timerReg_tstat h, Timer.toNat_tstat]
    case reserved => exact (hread 6 (by decide)).trans (State.timerReg_reserved h)
    case absent => exact (hread r hr).trans (State.timerReg_of_absent h r)
  case channels =>
    have hread : ∀ r, r < 8 → s.regval (0x100 + 8 * i + r) = s.channelReg i r := fun _ => s.regval_channelBlock hi
    refine ⟨fun h => ⟨?pin, ?isActive, ?pulseTicks, ?trims⟩, fun h r hr => ?absent, fun hinv h r hr => ?uncreated⟩
    case pin => exact (congrArg BitVec.toNat (hread 0 (by decide))).trans (State.toNat_channelReg_pin h)
    case isActive => rw [hread 2 (by decide), State.toNat_channelReg_isActive h]
    case pulseTicks => exact (hread 4 (by decide)).trans (State.channelReg_pulseTicks h)
    case trims => rw [hread 6 (by decide), State.toNat_channelReg_trims h]
    case absent => exact (hread r hr).trans (State.channelReg_of_absent h r)
    case uncreated => exact (hread r hr).trans (hinv.channelReg_of_uncreated h r)

end Sys2Proof.Machine
end

section
/-! The decoder by its cases: which words are legal, and what a word decodes to (30_encoding.md R81, R85). -/

namespace Sys2Proof

theorem opField_eq_iff_toNat (c : Word) (k : BitVec 4) : opField c = k ↔ c.toNat / 4096 = k.toNat := by
  rw [← opField_toNat, BitVec.toNat_inj]

theorem rsvField_eq_zero_iff_toNat (c : Word) : rsvField c = 0 ↔ c.toNat / 512 % 8 = 0 := by
  rw [← rsvField_toNat]
  exact BitVec.toNat_inj.symm

theorem xField_eq_false_iff_toNat (c : Word) : xField c = false ↔ c.toNat / 256 % 2 = 0 := by
  rw [xField_eq, beq_eq_false_iff_ne]
  exact Nat.mod_two_ne_one

/-- R85, `legal(c)`: OP, RSV and X are the numbers that the word holds above its ID. -/
theorem legal_iff_toNat (c : Word) :
    legal c ↔ c.toNat / 4096 ≤ 8 ∧ c.toNat / 512 % 8 = 0 ∧ (c.toNat / 256 % 2 = 0 ∨ c.toNat / 4096 = 2) ∧
      ((c.toNat / 4096 ≠ 0 ∧ c.toNat / 4096 ≠ 1) ∨ idField c = 0) := by
  simp only [legal, ne_eq, opField_toNat, opField_eq_iff_toNat, rsvField_eq_zero_iff_toNat, xField_eq_false_iff_toNat]
  rfl

theorem decode_of_not_legal {c : Word} (h : ¬ legal c) : decode c = .illegal c := if_neg h

/-! ### A legal word is the operation its OP names -/

section LegalWords

variable {c : Word} (h : legal c)
include h

theorem decode_nop (hop : (opField c).toNat = 0) : decode c = .nop := by
  simp only [decode, if_pos h, hop]

theorem decode_create (hop : (opField c).toNat = 1) : decode c = .create := by
  simp only [decode, if_pos h, hop]

theorem decode_attach (hop : (opField c).toNat = 2) : decode c = .attach (xField c) (idField c) := by
  simp only [decode, if_pos h, hop]

theorem decode_detach (hop : (opField c).toNat = 3) : decode c = .detach (idField c) := by
  simp only [decode, if_pos h, hop]

theorem decode_write (hop : (opField c).toNat = 4) : decode c = .write (idField c) := by
  simp only [decode, if_pos h, hop]

theorem decode_writeUs (hop : (opField c).toNat = 5) : decode c = .writeUs (idField c) := by
  simp only [decode, if_pos h, hop]

theorem decode_read (hop : (opField c).toNat = 6) : decode c = .read (idField c) := by
  simp only [decode, if_pos h, hop]

theorem decode_readUs (hop : (opField c).toNat = 7) : decode c = .readUs (idField c) := by
  simp only [decode, if_pos h, hop]

theorem decode_attached (hop : (opField c).toNat = 8) : decode c = .attached (idField c) := by
  simp only [decode, if_pos h, hop]

end LegalWords

end Sys2Proof

namespace Sys2Proof.Machine

/-- Settles O2: the numbers are those of the word's fields, by which `legal` and `decode` choose. -/
theorem wordsDecodeByTheirFields : Obligations.WordsDecodeByTheirFields := by
  rintro c op rsv x id hop rfl rfl hid
  obtain rfl : op = (opField c).toNat := hop.trans (opField_toNat c).symm
  obtain rfl : id = idField c := BitVec.eq_of_toNat_eq (hid.trans (idField_toNat c).symm)
  rw [← xField_eq]
  refine ⟨?legality, decode_of_not_legal, fun h => ?operation⟩
  case legality =>
    rw [hop]
    exact legal_iff_toNat c
  case operation =>
    exact ⟨decode_nop h, decode_create h, decode_attach h, decode_detach h, decode_write h, decode_writeUs h,
      decode_read h, decode_readUs h, decode_attached h⟩

end Sys2Proof.Machine
end

section
/-! The host port (40_host_port.md R100 to R105): an access by its offset and width, and the FLT_BUS record of one that is
not supported (20_memory.md R66, R68). -/

namespace Sys2Proof.Machine

/-- R66, the accesses that are not supported. -/
theorem not_supported_iff {off n : Nat} : ¬ supported off n ↔ n ≠ 2 ∨ off % 2 ≠ 0 ∨ 0xFFE < off := by
  omega

/-- The record of FLT_BUS: bit 3, and code 4 in FIRST with the first record (60_exceptions.md R205, R207). -/
theorem State.raise_fltBus (s : State) (info : Nat) :
    s.raise .fltBus info =
      { s with
        status := if s.status.extractLsb' 8 4 = 0 then s.status ||| 0x0408 else s.status ||| 0x0008
        finfo := if s.status.extractLsb' 8 4 = 0 then BitVec.ofNat 16 info else s.finfo } := by
  rw [State.raise, recordStatus_eq]
  rfl

/-- R102: what a CMD write executes is the decoded command, since no word decodes to an access or an event. -/
theorem execute_eq_exec_decode (c : Word) (s : State) : execute c s = exec (decode c) s := by
  have hcommand := isCommand_decode c
  unfold execute
  cases hdecode : decode c with
  | nop | create | attach | detach | write | writeUs | read | readUs | attached | illegal => rfl
  | hostRead | hostWrite | tick | compareMatch | service | timerInit | timerShutdown =>
    rw [hdecode] at hcommand
    cases hcommand

/-! ### One access of an idle SPS -/

section IdleAccess

variable {s : State} (hidle : s.cu = .idle) {off n : Nat} (v : Word)
include hidle

theorem exec_hostRead_idle :
    exec (.hostRead off n) s =
      if supported off n then .next (s.setReadData (s.regval off)) else .next ((s.raise .fltBus off).setReadData 0) := by
  rw [exec, execHostRead, whenIdle_idle hidle]

theorem exec_hostRead_supported (h : supported off n) :
    exec (.hostRead off n) s = .next (s.setReadData (s.regval off)) :=
  (exec_hostRead_idle hidle).trans (if_pos h)

theorem exec_hostRead_unsupported (h : ¬ supported off n) :
    exec (.hostRead off n) s = .next ((s.raise .fltBus off).setReadData 0) :=
  (exec_hostRead_idle hidle).trans (if_neg h)

theorem exec_hostWrite_unsupported (h : ¬ supported off n) :
    exec (.hostWrite off n v) s = .next (s.raise .fltBus off) := by
  rw [exec, execHostWrite, whenIdle_idle hidle, if_pos h]

/-- A supported write, by its offset alone; CMD executes the decoded word. -/
theorem exec_hostWrite_supported (h : supported off n) :
    exec (.hostWrite off n v) s =
      if off = 0x000 then exec (decode v) s
      else if off = 0x002 then .next { s with arg0 := v }
      else if off = 0x004 then .next { s with arg1 := v }
      else if off = 0x006 then .next { s with arg2 := v }
      else if off = 0x00C then .next { s with gie := v.getLsbD 0 }
      else .next s := by
  rw [exec, execHostWrite, whenIdle_idle hidle, if_neg (not_not_intro h), execute_eq_exec_decode]

theorem exec_hostWrite_cmd : exec (.hostWrite 0x000 2 v) s = exec (decode v) s :=
  exec_hostWrite_supported hidle v (by decide)

theorem exec_hostWrite_arg0 : exec (.hostWrite 0x002 2 v) s = .next { s with arg0 := v } :=
  exec_hostWrite_supported hidle v (by decide)

theorem exec_hostWrite_arg1 : exec (.hostWrite 0x004 2 v) s = .next { s with arg1 := v } :=
  exec_hostWrite_supported hidle v (by decide)

theorem exec_hostWrite_arg2 : exec (.hostWrite 0x006 2 v) s = .next { s with arg2 := v } :=
  exec_hostWrite_supported hidle v (by decide)

/-- R104: GIE takes bit 0 of the value. -/
theorem exec_hostWrite_ctrl : exec (.hostWrite 0x00C 2 v) s = .next { s with gie := v.toNat % 2 == 1 } := by
  have hbit : v.getLsbD 0 = (v.toNat % 2 == 1) := Nat.testBit_zero _
  rw [← hbit]
  exact exec_hostWrite_supported hidle v (by decide)

/-- R101, R67: a supported write elsewhere is ignored, and records nothing. -/
theorem exec_hostWrite_ignored (h : supported off n) (hoff : off ∉ [0x000, 0x002, 0x004, 0x006, 0x00C]) :
    exec (.hostWrite off n v) s = .next s := by
  obtain ⟨hcmd, harg0, harg1, harg2, hctrl⟩ :
      off ≠ 0x000 ∧ off ≠ 0x002 ∧ off ≠ 0x004 ∧ off ≠ 0x006 ∧ off ≠ 0x00C := by simpa using hoff
  rw [exec_hostWrite_supported hidle v h, if_neg hcmd, if_neg harg0, if_neg harg1, if_neg harg2, if_neg hctrl]

end IdleAccess

/-- Settles O38: the two branches of a read, which `supported` divides. -/
theorem hostReadHasNoSideEffect : Obligations.HostReadHasNoSideEffect := by
  intro s off n hidle
  refine ⟨fun hn heven hlast => exec_hostRead_supported hidle ⟨hn, heven, hlast⟩, fun h => ?unsupported⟩
  rw [exec_hostRead_unsupported hidle (not_supported_iff.mpr h), State.raise_fltBus]
  rfl

/-- Settles O39: a write by its offset, register by register, then the supported rest and the unsupported accesses. -/
theorem hostWriteReachesFiveRegisters : Obligations.HostWriteReachesFiveRegisters := by
  intro s off n v hidle
  refine ⟨exec_hostWrite_cmd hidle v, exec_hostWrite_arg0 hidle v, exec_hostWrite_arg1 hidle v,
    exec_hostWrite_arg2 hidle v, exec_hostWrite_ctrl hidle v,
    fun hn heven hlast => exec_hostWrite_ignored hidle v ⟨hn, heven, hlast⟩, fun h => ?unsupported⟩
  rw [exec_hostWrite_unsupported hidle v (not_supported_iff.mpr h), State.raise_fltBus]

end Sys2Proof.Machine
end

section
/-! The arithmetic of the envelope (41_registry.md R125 to R127), and the words with OP 0 and OP 1, which name no
channel (30_encoding.md R85). -/

namespace Sys2Proof

/-- R85: a legal word with OP 0 or 1 has no bit set below OP. -/
theorem toNat_mod_eq_zero_of_legal {c : Word} (h : legal c) (hop : c.toNat / 4096 ≤ 1) : c.toNat % 4096 = 0 := by
  obtain ⟨-, hrsv, hx, hid⟩ := (legal_iff_toNat c).mp h
  have hid0 : (idField c).toNat = 0 := by
    rw [hid.resolve_left (by omega)]
    rfl
  rw [idField_toNat] at hid0
  omega

/-- R85: the words that decode to CREATE. -/
theorem decode_eq_create_iff (c : Word) : decode c = .create ↔ c = 0x1000 := by
  refine ⟨fun h => ?_, fun h => by rw [h]; decide⟩
  have hlegal : legal c := by
    by_contra hn
    rw [decode_of_not_legal hn] at h
    cases h
  have hop : c.toNat / 4096 = 1 := by
    rw [decode, if_pos hlegal] at h
    split at h <;> cases h
    rwa [← opField_toNat]
  have hrest := toNat_mod_eq_zero_of_legal hlegal hop.le
  exact BitVec.eq_of_toNat_eq (show c.toNat = 0x1000 by omega)

/-- R6: neither divisor of the conversions is 0. -/
theorem Config.divisors_pos_of_wf {cfg : Config} (h : cfg.wf) : 1 ≤ cfg.cycPerUs ∧ 1 ≤ cfg.prescale := by
  obtain ⟨-, -, -, -, hdivisors, -⟩ := h
  exact hdivisors

namespace Machine

/-- Settles O16: the quotient of `calOK` is R9's, since a well-formed PRESCALE is not 0; in CFG-A the envelope of every
pair of trims lies between 36 and 2912 us. -/
theorem legalCalibrations : Obligations.LegalCalibrations := by
  refine ⟨?plain, fun mt xt hmt hmt' hxt hxt' => ?cfgA⟩
  case plain =>
    rintro cfg mt xt lo hi hwf rfl rfl
    obtain ⟨-, hprescale⟩ := Config.divisors_pos_of_wf hwf
    rw [calOK, usToTicks, divT_of_ne (by omega)]
    rfl
  case cfgA =>
    have hlo : envelopeLow Config.cfgA mt = 544 - 4 * mt := rfl
    have hhi : envelopeHigh Config.cfgA xt = 2400 - 4 * xt := rfl
    have hticks : usToTicks Config.cfgA (2400 - 4 * xt - 2) = (2400 - 4 * xt - 2) * 16 / 8 :=
      divT_of_nonneg (mul_nonneg (by omega) (by decide)) (by decide)
    have htrim : ((Config.cfgA.trimDuration : Nat) : Int) = 2 := rfl
    rw [calOK, hlo, hhi, htrim, hticks]
    omega

theorem clampTo_eq_self {lo hi v : Int} (hlo : lo ≤ v) (hhi : v ≤ hi) : clampTo lo hi v = v := by
  rw [clampTo, max_eq_left hlo, min_eq_left hhi]

/-- R127: the degrees' own clamp maps everything up to 0 to the low end of the envelope. -/
theorem degToUsIn_of_nonpos {lo hi d : Int} (h : lo < hi) (hd : d ≤ 0) : degToUsIn lo hi d = lo := by
  rw [degToUsIn_eq h, max_eq_right hd]
  simp

/-- R127: and everything from 180 on to the high end. -/
theorem degToUsIn_of_ge {lo hi d : Int} (h : lo < hi) (hd : 180 ≤ d) : degToUsIn lo hi d = hi := by
  rw [degToUsIn_eq h, max_eq_left (by omega), min_eq_right hd, Int.mul_ediv_cancel_left _ (by decide)]
  omega

/-- Settles O17: `clampUs` and `degToUs` are the clamp and the map on the channel's own envelope. -/
theorem widthsStayInTheEnvelope : Obligations.WidthsStayInTheEnvelope := by
  rintro s i lo hi v hlo hhi hlt
  have hclamp : s.clampUs i v = clampTo lo hi v := by rw [hlo, hhi]; rfl
  have hdeg : s.degToUs i v = degToUsIn lo hi v := by rw [hlo, hhi]; rfl
  rw [hclamp, hdeg]
  refine ⟨clampTo_of_le hlt, clampTo_eq_self, fun hv => ?below, fun hv => ?above, degToUsIn_eq hlt,
    degToUsIn_mem hlt, degToUsIn_of_nonpos hlt, degToUsIn_of_ge hlt⟩
  case below => rw [clampTo, max_eq_right hv.le, min_eq_left hlt.le]
  case above => rw [clampTo, max_eq_left (by omega), min_eq_right hv.le]

end Machine

end Sys2Proof
end

section
/-! The registry commands from an idle unit (41_registry.md R130 to R139): the first micro-step of each, for a valid id
and for an invalid one (R120). -/

namespace Sys2Proof.Machine

/-! ### From idle, a command runs its first micro-step (40_host_port.md R102) -/

section Idle

variable {s : State} {id : ChannelId} (hidle : s.cu = .idle)
include hidle

theorem exec_nop_idle : exec .nop s = .next s :=
  (runCommand_idle hidle).trans (congrArg _ (State.done_eq_self hidle))

theorem exec_illegal_idle (c : Word) : exec (.illegal c) s = .next (s.raise .errCmd c.toNat) :=
  (runCommand_idle hidle).trans (congrArg _ (State.done_eq_self (s := s.raise .errCmd c.toNat) hidle))

theorem exec_create_idle : exec .create s = .next s.createCount := runCommand_idle hidle

theorem exec_attach_idle (x : Bool) : exec (.attach x id) s = .next (s.attachConfigure x id) := runCommand_idle hidle

theorem exec_detach_idle : exec (.detach id) s = .next (s.detachDeactivate id) := runCommand_idle hidle

theorem exec_write_idle :
    exec (.write id) s =
      .next (if s.valid id then s.storeUs id.toNat (s.writeValueUs id.toNat s.valueOperand) else s) :=
  (runCommand_idle hidle).trans (congrArg _ (State.done_eq_self (by split <;> exact hidle)))

theorem exec_writeUs_idle :
    exec (.writeUs id) s = .next (if s.valid id then s.storeUs id.toNat s.valueOperand else s) :=
  (runCommand_idle hidle).trans (congrArg _ (State.done_eq_self (by split <;> exact hidle)))

theorem exec_read_idle : exec (.read id) s = .next (s.setResult (s.readValue id)) :=
  (runCommand_idle hidle).trans (congrArg _ (State.done_eq_self (s := s.setResult _) hidle))

theorem exec_readUs_idle : exec (.readUs id) s = .next (s.setResult (s.readUsValue id)) :=
  (runCommand_idle hidle).trans (congrArg _ (State.done_eq_self (s := s.setResult _) hidle))

theorem exec_attached_idle : exec (.attached id) s = .next (s.setResult (s.attachedValue id)) :=
  (runCommand_idle hidle).trans (congrArg _ (State.done_eq_self (s := s.setResult _) hidle))

/-! ### An invalid id, or a full table (R143) -/

theorem exec_create_full (hfull : s.cfg.maxChannels ≤ s.channelCount.toNat) :
    exec .create s = .next { s with result := 0x00FF } := by
  rw [exec_create_idle hidle, State.createCount, if_pos hfull]
  exact congrArg _ (State.done_eq_self (s := s.setResult 0x00FF) hidle)

section InvalidId

variable (hid : ¬ s.valid id)
include hid

theorem exec_attach_invalid (x : Bool) : exec (.attach x id) s = .next s := by
  rw [exec_attach_idle hidle, State.attachConfigure, if_pos hid, State.done_eq_self hidle]

theorem exec_detach_invalid : exec (.detach id) s = .next s := by
  rw [exec_detach_idle hidle, State.detachDeactivate, if_neg hid, State.done_eq_self hidle]

theorem exec_write_invalid : exec (.write id) s = .next s := by
  rw [exec_write_idle hidle, if_neg hid]

theorem exec_writeUs_invalid : exec (.writeUs id) s = .next s := by
  rw [exec_writeUs_idle hidle, if_neg hid]

theorem exec_read_invalid : exec (.read id) s = .next { s with result := 0xFFFF } := by
  rw [exec_read_idle hidle, State.readValue, if_neg hid]
  rfl

theorem exec_readUs_invalid : exec (.readUs id) s = .next { s with result := 0 } := by
  rw [exec_readUs_idle hidle, State.readUsValue, if_neg hid]
  rfl

theorem exec_attached_invalid : exec (.attached id) s = .next { s with result := 0 } := by
  rw [exec_attached_idle hidle, State.attachedValue, if_neg hid]
  rfl

end InvalidId

end Idle

/-- Settles O32: one lemma for each command, since an id at or above the count is not valid. -/
theorem invalidIdsAreNoOps : Obligations.InvalidIdsAreNoOps := by
  intro s id x hidle
  refine ⟨fun hcount => ?_, exec_create_full hidle⟩
  have hid : ¬ s.valid id := not_lt.mpr hcount
  exact ⟨exec_attach_invalid hidle hid x, exec_detach_invalid hidle hid, exec_write_invalid hidle hid,
    exec_writeUs_invalid hidle hid, exec_read_invalid hidle hid, exec_readUs_invalid hidle hid,
    exec_attached_invalid hidle hid⟩

/-! ### NOP and ILLEGAL (R130, R139) -/

/-- Settles O18: NOP is `done` alone, and below 0x1000 only the word 0 is legal. -/
theorem nopChangesNothing : Obligations.NopChangesNothing := by
  refine ⟨fun s hidle => exec_nop_idle hidle, by decide, fun c hlt hne => decode_of_not_legal fun hlegal => hne ?_⟩
  have hrest := toNat_mod_eq_zero_of_legal hlegal (by omega)
  exact BitVec.eq_of_toNat_eq (show c.toNat = 0 by omega)

/-- The record of ERR_CMD: bit 0, and code 1 in FIRST with the first record (60_exceptions.md R202, R207). -/
theorem State.raise_errCmd (s : State) (info : Nat) :
    s.raise .errCmd info =
      { s with
        status := if s.status.extractLsb' 8 4 = 0 then s.status ||| 0x0101 else s.status ||| 0x0001
        finfo := if s.status.extractLsb' 8 4 = 0 then BitVec.ofNat 16 info else s.finfo } := by
  rw [State.raise, recordStatus_eq]
  rfl

/-- Settles O19: ILLEGAL is the record of ERR_CMD alone. -/
theorem illegalWordsOnlyRecord : Obligations.IllegalWordsOnlyRecord := by
  refine fun c s hidle => ⟨?_, decode_of_not_legal⟩
  rw [exec_illegal_idle hidle, State.raise_errCmd, BitVec.ofNat_toNat, BitVec.setWidth_eq]

end Sys2Proof.Machine
end

section
/-! CREATE (41_registry.md R131, R142), one command and a schedule of them. -/

namespace Sys2Proof.Machine

/-! ### The two micro-steps (R131) -/

theorem exec_create_count {s : State} (hidle : s.cu = .idle) (hroom : s.channelCount.toNat < s.cfg.maxChannels) :
    exec .create s =
      .next { s with channelCount := s.channelCount + 1, cu := .busy 0x1000 2 s.channelCount } := by
  rw [exec_create_idle hidle, State.createCount, if_neg (by omega), wordOf_create]
  rfl

theorem exec_create_width {s : State} {id : ChannelId} (hbusy : s.cu = .busy 0x1000 2 id)
    (hprescale : 1 ≤ s.cfg.prescale) :
    exec .create s =
      .next { s with
        ch := s.ch.set id.toNat
          { s.chan id.toNat with
            pulseTicks := BitVec.ofNat 16 (s.cfg.defaultPulseWidth * s.cfg.cycPerUs / s.cfg.prescale) }
        result := BitVec.ofNat 16 id.toNat
        cu := .idle } := by
  have hstep : exec .create s = .next s.createWidth := runCommand_busy (wordOf_create ▸ hbusy) rfl
  have hlocal : s.localId = id := by rw [State.localId, hbusy]
  rw [hstep, State.createWidth, hlocal, usToTicks_natCast hprescale, BitVec.ofInt_natCast, ← BitVec.ofNat_toNat]
  rfl

/-- Settles O20: the only word of CREATE, and one lemma for each micro-step and for the full table. -/
theorem createCountsThenSetsTheWidth : Obligations.CreateCountsThenSetsTheWidth :=
  ⟨decode_eq_create_iff, fun _ => exec_create_count, fun _ => exec_create_full, fun _ _ => exec_create_width⟩

/-! ### A schedule of CREATEs (R142) -/

/-- n writes of CREATE's word to CMD. -/
def createWrites (n : Nat) : List Move := List.replicate n (.hostWrite 0x000 2 0x1000)

/-- A CMD write at the head of the schedule of an idle unit is the decoded word's first micro-step (40_host_port.md
R102). -/
theorem step_cmdWrite {s : State} (hwf : s.cfg.wf) (hidle : s.cu = .idle) {c : Word} {rest : List Move}
    (hp : s.pending = .hostWrite 0x000 2 c :: rest) : step s = exec (decode c) { s with pending := rest } := by
  have hhost : step s = exec (.hostWrite 0x000 2 c) { s with pending := rest } := by
    simp only [step, agentStep, if_pos hwf, hp, hostStep, hidle]
  exact hhost.trans (exec_hostWrite_cmd (s := { s with pending := rest }) hidle c)

/-- While a word is in progress and the schedule holds host writes alone, the step is the word's next micro-step
(R102). -/
theorem step_busy_createWrites {s : State} (hwf : s.cfg.wf) {c : Word} {k : Nat} {id : ChannelId}
    (hbusy : s.cu = .busy c k id) {n : Nat} (hp : s.pending = createWrites n) : step s = exec (decode c) s := by
  cases n with
  | zero => simp only [step, agentStep, if_pos hwf, hp, createWrites, List.replicate, resume, hbusy]
  | succ n => simp only [step, agentStep, if_pos hwf, hp, createWrites, List.replicate, hostStep, resume, hbusy]

/-- A run takes its first step. -/
theorem run_succ {s s' : State} (h : step s = .next s') (k : Nat) :
    Host.Core.run core (k + 1) s = Host.Core.run core k s' := by
  have hstep : core.step s = .next s' := h
  simp only [Host.Core.run, hstep]

/-- Where a run of CREATEs from reset stands between two of them: idle, with the id of the last channel in RESULT. -/
def State.LastIdReturned (s : State) : Prop :=
  s.cu = .idle ∧ (1 ≤ s.channelCount.toNat → s.result.toNat = s.channelCount.toNat - 1)

theorem decode_createWord : decode 0x1000 = .create := (decode_eq_create_iff _).mpr rfl

theorem step_create_count {s : State} (hwf : s.cfg.wf) (hidle : s.cu = .idle)
    (hroom : s.channelCount.toNat < s.cfg.maxChannels) {n : Nat} (hp : s.pending = createWrites (n + 1)) :
    step s =
      .next { s with
        channelCount := s.channelCount + 1, cu := .busy 0x1000 2 s.channelCount, pending := createWrites n } := by
  rw [step_cmdWrite hwf hidle hp, decode_createWord]
  exact exec_create_count (s := { s with pending := createWrites n }) hidle hroom

theorem step_create_width {s : State} (hwf : s.cfg.wf) {id : ChannelId} (hbusy : s.cu = .busy 0x1000 2 id) {n : Nat}
    (hp : s.pending = createWrites n) :
    ∃ ch, step s = .next { s with ch := ch, result := BitVec.ofNat 16 id.toNat, cu := .idle } := by
  obtain ⟨-, hprescale⟩ := Config.divisors_pos_of_wf hwf
  rw [step_busy_createWrites hwf hbusy hp, decode_createWord]
  exact ⟨_, exec_create_width hbusy hprescale⟩

/-- On a full table, a CREATE is one step that leaves the sentinel in RESULT. -/
theorem step_create_full {s : State} (hwf : s.cfg.wf) (hidle : s.cu = .idle)
    (hfull : s.cfg.maxChannels ≤ s.channelCount.toNat) {n : Nat} (hp : s.pending = createWrites (n + 1)) :
    step s = .next { s with result := 0x00FF, pending := createWrites n } := by
  rw [step_cmdWrite hwf hidle hp, decode_createWord]
  exact exec_create_full (s := { s with pending := createWrites n }) hidle hfull

/-- A CREATE that finds a free entry takes two steps, and returns the count it found. -/
theorem run_create {s : State} (hwf : s.cfg.wf) (hidle : s.cu = .idle)
    (hroom : s.channelCount.toNat < s.cfg.maxChannels) {n : Nat} (hp : s.pending = createWrites (n + 1)) :
    ∃ s' : State, (∀ k, Host.Core.run core (k + 2) s = Host.Core.run core k s') ∧ s'.LastIdReturned ∧
      s'.cfg = s.cfg ∧ s'.channelCount.toNat = s.channelCount.toNat + 1 ∧ s'.pending = createWrites n := by
  have hcount : (s.channelCount + 1).toNat = s.channelCount.toNat + 1 := by
    obtain ⟨-, -, hmax, -⟩ := hwf
    rw [BitVec.toNat_add]
    exact Nat.mod_eq_of_lt (show s.channelCount.toNat + 1 < 256 by omega)
  have hfirst := step_create_count hwf hidle hroom hp
  obtain ⟨ch, hsecond⟩ := step_create_width hwf rfl rfl (n := n)
    (s := { s with
      channelCount := s.channelCount + 1, cu := .busy 0x1000 2 s.channelCount, pending := createWrites n })
  have hresult : (BitVec.ofNat 16 s.channelCount.toNat).toNat = (s.channelCount + 1).toNat - 1 := by
    rw [hcount, BitVec.toNat_ofNat]
    omega
  exact ⟨_, fun k => (run_succ hfirst _).trans (run_succ hsecond k), ⟨rfl, fun _ => hresult⟩, rfl, hcount, rfl⟩

/-- While the table has room, n CREATEs take two steps each. -/
theorem run_creates {n : Nat} {s : State} (hwf : s.cfg.wf) (hs : s.LastIdReturned)
    (hroom : s.channelCount.toNat + n ≤ s.cfg.maxChannels) (hp : s.pending = createWrites n) :
    ∃ s' : State, Host.Core.run core (2 * n) s = .next s' ∧ s'.LastIdReturned ∧ s'.cfg = s.cfg ∧
      s'.channelCount.toNat = s.channelCount.toNat + n ∧ s'.pending = [] := by
  induction n generalizing s with
  | zero => exact ⟨s, rfl, hs, rfl, rfl, hp⟩
  | succ n ih =>
    obtain ⟨s1, hrun, hs1, hcfg, hcount, hp1⟩ := run_create hwf hs.1 (by omega) hp
    obtain ⟨s', hrun', hs', hcfg', hcount', hp'⟩ := ih (hcfg ▸ hwf) hs1 (by rw [hcfg]; omega) hp1
    exact ⟨s', (hrun _).trans hrun', hs', hcfg'.trans hcfg, by omega, hp'⟩

/-- On a full table, CREATEs take one step each, and together leave the sentinel in RESULT and nothing else. -/
theorem run_creates_full (j : Nat) {s : State} (hwf : s.cfg.wf) (hidle : s.cu = .idle)
    (hfull : s.cfg.maxChannels ≤ s.channelCount.toNat) (hp : s.pending = createWrites (j + 1)) :
    Host.Core.run core (j + 1) s = .next { s with result := 0x00FF, pending := [] } := by
  induction j generalizing s with
  | zero => exact run_succ (step_create_full hwf hidle hfull hp) 0
  | succ j ih =>
    refine (run_succ (step_create_full hwf hidle hfull hp) (j + 1)).trans ?_
    exact ih (s := { s with result := 0x00FF, pending := createWrites (j + 1) }) hwf hidle hfull rfl

/-- Settles O21: two steps for each CREATE while there is room, by induction on their number, and then one step each. -/
theorem createsReturnIncreasingIds : Obligations.CreatesReturnIncreasingIds := by
  intro cfg k hwf hk
  obtain ⟨s, hrun, ⟨hidle, hresult⟩, hcfg, hcount, hp⟩ :=
    run_creates (n := k) (s := { State.resetOf cfg with pending := createWrites k }) hwf
      ⟨rfl, fun h => absurd h (show ¬ 1 ≤ 0 by decide)⟩ (by simpa [State.resetOf] using hk) rfl
  have hcount' : s.channelCount.toNat = k := by simpa [State.resetOf] using hcount
  refine ⟨s, hrun, hp, hidle, hcount', fun h => hcount' ▸ hresult (hcount' ▸ h), fun hfull j hj => ?full⟩
  case full =>
    obtain ⟨j, rfl⟩ := Nat.exists_eq_add_of_le' hj
    have hfull' : s.cfg.maxChannels ≤ s.channelCount.toNat := by rw [hcfg, hcount', hfull]; rfl
    have hp' : ({ s with result := 0x00FF, pending := [] } : State) = { s with result := 0x00FF } := by rw [← hp]
    exact (run_creates_full j (s := { s with pending := createWrites (j + 1) }) (hcfg ▸ hwf) hidle hfull' rfl).trans
      (congrArg _ hp')

end Sys2Proof.Machine
end

section
/-! DETACH and the commands that store or return a width (41_registry.md R133 to R138), on a valid id. -/

namespace Sys2Proof.Machine

/-! ### DETACH (R133) -/

theorem exec_detach_deactivate {s : State} {id : ChannelId} (hidle : s.cu = .idle) (hid : s.valid id) :
    exec (.detach id) s =
      .next { s with
        ch := s.ch.set id.toNat { s.chan id.toNat with isActive := false }
        cu := .busy (BitVec.ofNat 16 (0x3000 + id.toNat)) 2 id } := by
  rw [exec_detach_idle hidle, State.detachDeactivate, if_pos hid, wordOf_detach]
  rfl

theorem exec_detach_timer {s : State} {id l : ChannelId}
    (hbusy : s.cu = .busy (BitVec.ofNat 16 (0x3000 + id.toNat)) 2 l) :
    exec (.detach id) s = .next (s.detachTimer id) :=
  runCommand_busy (f := fun s => s.detachTimer id) (wordOf_detach id ▸ hbusy) rfl

theorem State.detachTimer_of_active {s : State} {id : ChannelId} (h : s.timerActive (s.timerOf id.toNat) = true) :
    s.detachTimer id = s.done := by
  rw [detachTimer, if_pos h]

theorem State.detachTimer_of_inactive {s : State} {id : ChannelId} (h : s.timerActive (s.timerOf id.toNat) = false) :
    s.detachTimer id = (s.timerShutdown (s.timerOf id.toNat)).done := by
  rw [detachTimer, if_neg (by rw [h]; decide)]

/-- Settles O25: the two micro-steps, the second by whether the timer has an active channel (R129). -/
theorem detachShutsDownAnIdleTimer : Obligations.DetachShutsDownAnIdleTimer := by
  rintro s id c t rfl rfl
  refine ⟨exec_detach_invalid, exec_detach_deactivate, fun hbusy hactive => ?active, fun hbusy hnone => ?inactive⟩
  case active =>
    rw [exec_detach_timer hbusy, State.detachTimer_of_active ((s.timerActive_iff _).mpr hactive)]
    rfl
  case inactive =>
    rw [exec_detach_timer hbusy, State.detachTimer_of_inactive ((s.timerActive_eq_false _).mpr hnone)]
    rfl

/-! ### WRITE_US and WRITE (R134, R135) -/

/-- R135 corner case 2, on the channel's own envelope: a clamped width is not negative and its ticks fit 16 bits. -/
theorem State.clampUs_fits {s : State} {i : Nat} (hprescale : 1 ≤ s.cfg.prescale)
    (hcal : calOK s.cfg (s.chan i).minTrim.toInt (s.chan i).maxTrim.toInt) (v : Int) :
    0 ≤ s.clampUs i v - s.cfg.trimDuration ∧ usToTicks s.cfg (s.clampUs i v - s.cfg.trimDuration) ≤ 0xFFFF := by
  obtain ⟨hnonneg, -, hfits⟩ := storedWidth_fits hprescale hcal (v := v)
  exact ⟨hnonneg, hfits⟩

/-- R135: on a legal calibration the stored width is a natural number of ticks. -/
theorem State.storeUs_of_calOK {s : State} {i : Nat} {v u : Int} (hprescale : 1 ≤ s.cfg.prescale)
    (hcal : calOK s.cfg (s.chan i).minTrim.toInt (s.chan i).maxTrim.toInt)
    (hu : s.clampUs i v - s.cfg.trimDuration = u) :
    s.storeUs i v =
      { s with
        ch := s.ch.set i
          { s.chan i with pulseTicks := BitVec.ofNat 16 (u.toNat * s.cfg.cycPerUs / s.cfg.prescale) } } := by
  obtain ⟨hnonneg, -⟩ := clampUs_fits hprescale hcal v
  rw [storeUs_eq, hu, usToTicks_of_nonneg hprescale (hu ▸ hnonneg), BitVec.ofInt_natCast]
  rfl

/-- Settles O28: the store with the clamp written out, and its bounds under a legal calibration. -/
theorem writeUsStoresTheClampedWidth : Obligations.WriteUsStoresTheClampedWidth := by
  rintro s id lo hi u hwf hidle hcal rfl rfl rfl
  obtain ⟨-, hprescale⟩ := Config.divisors_pos_of_wf hwf
  obtain ⟨hnonneg, hfits⟩ := State.clampUs_fits hprescale hcal s.valueOperand
  refine ⟨exec_writeUs_invalid hidle, fun hid => ?store, hnonneg, ?fits⟩
  case store =>
    rw [exec_writeUs_idle hidle, if_pos hid]
    exact congrArg _ (State.storeUs_of_calOK hprescale hcal rfl)
  case fits =>
    rw [usToTicks_of_nonneg hprescale hnonneg] at hfits
    exact_mod_cast hfits

/-- R125: under a legal calibration the channel's envelope is not empty. -/
theorem State.effMin_lt_effMax {s : State} {i : Nat}
    (hcal : calOK s.cfg (s.chan i).minTrim.toInt (s.chan i).maxTrim.toInt) : s.effMin i < s.effMax i := by
  obtain ⟨-, hlt, -⟩ := hcal
  exact hlt

/-- R134: mapped degrees lie in the envelope, so the store's clamp leaves them alone. -/
theorem State.clampUs_degToUs {s : State} {i : Nat} (h : s.effMin i < s.effMax i) (d : Int) :
    s.clampUs i (s.degToUs i d) = s.degToUs i d := by
  obtain ⟨hlo, hhi⟩ := degToUsIn_mem (d := d) h
  exact clampTo_eq_self hlo hhi

/-- Settles O29: below the threshold the clamp leaves the mapped degrees alone, and from it on WRITE is WRITE_US. -/
theorem writeMapsDegreesBelowTheThreshold : Obligations.WriteMapsDegreesBelowTheThreshold := by
  rintro s id lo hi v u hwf hidle hcal rfl rfl rfl hdeg hus
  obtain ⟨-, hprescale⟩ := Config.divisors_pos_of_wf hwf
  have hlt := State.effMin_lt_effMax hcal
  refine ⟨exec_write_invalid hidle, fun hid => ?_⟩
  rw [exec_write_idle hidle, if_pos hid]
  refine congrArg _ (State.storeUs_of_calOK hprescale hcal ?_)
  by_cases hv : s.arg0.toInt < s.cfg.minPulseWidth
  · rw [hdeg hv, State.writeValueUs, State.valueOperand, if_pos hv, State.clampUs_degToUs hlt]
    exact congrArg (· - _) (degToUsIn_eq hlt)
  · rw [hus (not_lt.mp hv), State.writeValueUs, State.valueOperand, if_neg hv]
    rfl

/-! ### READ, READ_US and ATTACHED (R136 to R138) -/

/-- R122, R136, R137: the stored width in us, with TRIM_DURATION added back, on natural numbers. -/
theorem State.widthUs_eq {s : State} (hcyc : 1 ≤ s.cfg.cycPerUs) (i : Nat) :
    s.widthUs i = ((s.chan i).pulseTicks.toNat * s.cfg.prescale / s.cfg.cycPerUs + s.cfg.trimDuration : Nat) := by
  rw [widthUs, ticksToUs_natCast hcyc]
  exact (Nat.cast_add _ _).symm

theorem exec_read_valid {s : State} {id : ChannelId} (hidle : s.cu = .idle) (hid : s.valid id) :
    exec (.read id) s = .next { s with result := BitVec.ofInt 16 (s.usToDeg id.toNat (s.widthUs id.toNat)) } := by
  rw [exec_read_idle hidle, State.readValue, if_pos hid]
  rfl

theorem exec_readUs_valid {s : State} {id : ChannelId} (hidle : s.cu = .idle) (hid : s.valid id) :
    exec (.readUs id) s = .next { s with result := BitVec.ofInt 16 (s.widthUs id.toNat) } := by
  rw [exec_readUs_idle hidle, State.readUsValue, if_pos hid]
  rfl

theorem exec_attached_valid {s : State} {id : ChannelId} (hidle : s.cu = .idle) (hid : s.valid id) :
    exec (.attached id) s = .next { s with result := BitVec.ofNat 16 (s.chan id.toNat).isActive.toNat } := by
  have hbit : ∀ b : Bool, (BitVec.ofBool b).setWidth 16 = BitVec.ofNat 16 b.toNat := by decide
  rw [exec_attached_idle hidle, State.attachedValue, if_pos hid, hbit]
  rfl

/-- R128: the map back to degrees, when the envelope is not empty. -/
theorem usToDegIn_eq {cfg : Config} {lo hi u : Int} (h : lo < hi) :
    usToDegIn cfg lo hi u = Int.tdiv ((u + cfg.readBiasUs - lo) * 180) (hi - lo) :=
  divT_of_ne (by omega)

/-- Settles O30: both conversions are truncated quotients, as CYC_PER_US and the envelope's width are not 0. -/
theorem readReturnsDegrees : Obligations.ReadReturnsDegrees := by
  intro s id lo hi u hidle
  refine ⟨exec_read_invalid hidle, fun hid hcyc hlo hhi hlt hu => ?_⟩
  have hwidth : s.widthUs id.toNat = u := by rw [State.widthUs_eq hcyc, hu, Nat.cast_add]
  have hdeg : s.usToDeg id.toNat u = usToDegIn s.cfg lo hi u := by rw [hlo, hhi]; rfl
  rw [exec_read_valid hidle hid, hwidth, hdeg, usToDegIn_eq hlt]

/-- Settles O31: the width on natural numbers, and isActive as one bit. -/
theorem readUsAndAttachedResults : Obligations.ReadUsAndAttachedResults := by
  intro s id hidle
  refine ⟨fun hid hcyc => ?_, exec_readUs_invalid hidle, exec_attached_valid hidle, exec_attached_invalid hidle⟩
  rw [exec_readUs_valid hidle hid, State.widthUs_eq hcyc, BitVec.ofInt_natCast]

end Sys2Proof.Machine
end

section
/-! The round trips of a width through the table (41_registry.md R140, R141). -/

namespace Sys2Proof.Machine

/-! ### Truncated conversions there and back, on plain numbers -/

/-- From us to ticks and back never gains. -/
theorem mul_div_mul_div_le (u c p : Nat) : u * c / p * p / c ≤ u :=
  Nat.div_le_of_le_mul ((Nat.div_mul_le_self (u * c) p).trans (Nat.mul_comm u c).le)

/-- And loses no more than one tick, in us, rounded up. -/
theorem le_mul_div_mul_div_add_ceil {c p : Nat} (hc : 1 ≤ c) (hp : 1 ≤ p) (u : Nat) :
    u ≤ u * c / p * p / c + (p + c - 1) / c := by
  have htick : u * c < u * c / p * p + p := Nat.lt_div_mul_add hp
  have hback : u * c / p * p < u * c / p * p / c * c + c := Nat.lt_div_mul_add hc
  have hceil : p + c - 1 < (p + c - 1) / c * c + c := Nat.lt_div_mul_add hc
  have hlt : u * c < (u * c / p * p / c + (p + c - 1) / c + 1) * c := by
    rw [Nat.add_mul, Nat.add_mul]
    omega
  exact Nat.le_of_lt_succ (Nat.lt_of_mul_lt_mul_right hlt)

/-- It loses nothing when a us is a whole number of ticks. -/
theorem mul_div_mul_div_of_dvd {c p : Nat} (hc : 1 ≤ c) (h : p ∣ c) (u : Nat) : u * c / p * p / c = u := by
  rw [Nat.div_mul_cancel (h.mul_left u), Nat.mul_div_cancel u hc]

/-- From degrees to us and back, on an envelope of at least 180 us, loses at most one degree. -/
theorem tdiv_mul_ediv_mul {d w : Int} (hd : 0 ≤ d) (hw : 180 ≤ w) :
    Int.tdiv (d * w / 180 * 180) w = d ∨ Int.tdiv (d * w / 180 * 180) w = d - 1 := by
  have hdw : 0 ≤ d * w := mul_nonneg hd (by omega)
  have hpred : (d - 1) * w = d * w - w := sub_one_mul d w
  rw [Int.tdiv_eq_ediv_of_nonneg (by omega)]
  have hle : d * w / 180 * 180 / w ≤ d := Int.ediv_le_of_le_mul (by omega) (by omega)
  have hge : d - 1 ≤ d * w / 180 * 180 / w := Int.le_ediv_of_mul_le (by omega) (by omega)
  omega

/-! ### The stored width read again -/

/-- R135: under a legal calibration a width of the envelope, less TRIM_DURATION, is stored as the ticks it is. -/
theorem State.widthUs_storeUs {s : State} {i : Nat} {v : Int} (hwf : s.cfg.wf) (hi : i < s.ch.length)
    (hcal : calOK s.cfg (s.chan i).minTrim.toInt (s.chan i).maxTrim.toInt) (hlo : s.effMin i ≤ v)
    (hhi : v ≤ s.effMax i) :
    ∃ u : Nat, v = u + s.cfg.trimDuration ∧
      (s.storeUs i v).widthUs i =
        (u * s.cfg.cycPerUs / s.cfg.prescale * s.cfg.prescale / s.cfg.cycPerUs + s.cfg.trimDuration : Nat) := by
  obtain ⟨hcyc, hprescale⟩ := Config.divisors_pos_of_wf hwf
  have hclamp : s.clampUs i v = v := clampTo_eq_self hlo hhi
  obtain ⟨hnonneg, hfits⟩ := clampUs_fits hprescale hcal v
  obtain ⟨u, hu⟩ := Int.eq_ofNat_of_zero_le hnonneg
  rw [hu, usToTicks_natCast hprescale] at hfits
  have hticks : ((s.storeUs i v).chan i).pulseTicks.toNat = u * s.cfg.cycPerUs / s.cfg.prescale := by
    rw [storeUs_eq, chan_setChan_same _ _ hi, hu, usToTicks_natCast hprescale, BitVec.ofInt_natCast,
      BitVec.toNat_ofNat]
    exact Nat.mod_eq_of_lt (by omega)
  refine ⟨u, by omega, ?_⟩
  rw [widthUs_eq (s := s.storeUs i v) hcyc, hticks]
  rfl

/-- What READ and READ_US return speaks of the channel and the configuration alone. -/
theorem State.widthUs_congr {s1 s2 : State} {i : Nat} (hcfg : s2.cfg = s1.cfg) (hch : s2.chan i = s1.chan i) :
    s2.widthUs i = s1.widthUs i := by
  rw [widthUs, widthUs, hcfg, hch]

theorem State.usToDeg_congr {s1 s2 : State} {i : Nat} (hcfg : s2.cfg = s1.cfg) (hch : s2.chan i = s1.chan i)
    (u : Int) : s2.usToDeg i u = s1.usToDeg i u := by
  rw [usToDeg, usToDeg, effMin, effMin, effMax, effMax, hcfg, hch]

/-- A store leaves the channel's envelope alone. -/
theorem State.usToDeg_storeUs (s : State) (i : Nat) (v u : Int) : (s.storeUs i v).usToDeg i u = s.usToDeg i u := by
  rw [usToDeg, usToDeg, effMin, effMin, effMax, effMax, storeUs_eq, chan_setChan]
  split <;> rfl

/-- Settles O33: the width that READ_US converts back is the stored one, and each conversion truncates. -/
theorem microsecondsRoundTrip : Obligations.MicrosecondsRoundTrip := by
  rintro s id v hwf hidle hid hlen hcal rfl hlo hhi
  obtain ⟨hcyc, hprescale⟩ := Config.divisors_pos_of_wf hwf
  obtain ⟨u, hu, hwidth⟩ := State.widthUs_storeUs hwf hlen hcal hlo hhi
  refine ⟨s.storeUs id.toNat s.arg0.toInt, by rw [exec_writeUs_idle hidle, if_pos hid]; rfl, ?_⟩
  intro s2 hcfg hch hid2 hidle2
  refine ⟨_, exec_readUs_valid hidle2 hid2, ?_⟩
  rw [State.widthUs_congr hcfg hch, hwidth, BitVec.ofInt_natCast, BitVec.toNat_ofNat]
  have hle := mul_div_mul_div_le u s.cfg.cycPerUs s.cfg.prescale
  have hge := le_mul_div_mul_div_add_ceil hcyc hprescale u
  have harg : s.arg0.toInt < 2 ^ 15 := BitVec.toInt_lt
  rw [Nat.mod_eq_of_lt (by omega)]
  refine ⟨by omega, by omega, fun hmod => ?exact⟩
  case exact =>
    rw [mul_div_mul_div_of_dvd hcyc (Nat.dvd_of_mod_eq_zero hmod), hu]
    exact Nat.cast_add _ _

/-- R128 of R127's value: the degrees, or one less. -/
theorem State.usToDeg_degToUs {s : State} {i : Nat} {d : Int} (hbias : s.cfg.readBiasUs = 0)
    (hwide : 180 ≤ s.effMax i - s.effMin i) (hd : 0 ≤ d) (hd' : d ≤ 180) :
    s.usToDeg i (s.degToUs i d) = d ∨ s.usToDeg i (s.degToUs i d) = d - 1 := by
  have hlt : s.effMin i < s.effMax i := by omega
  have hmap : s.degToUs i d = s.effMin i + d * (s.effMax i - s.effMin i) / 180 := by
    rw [degToUs, degToUsIn_eq hlt, max_eq_left hd, min_eq_left hd']
  rw [hmap, usToDeg, usToDegIn_eq hlt, hbias, add_zero, add_sub_cancel_left]
  exact tdiv_mul_ediv_mul hd hwide

/-- Settles O34: with whole ticks in a us, the width that READ maps back is the one WRITE mapped. -/
theorem degreesRoundTrip : Obligations.DegreesRoundTrip := by
  rintro s id d hwf hidle hid hlen hcal hmin hmod hbias hwide rfl hd hd'
  obtain ⟨hcyc, -⟩ := Config.divisors_pos_of_wf hwf
  obtain ⟨hlo, hhi⟩ := degToUsIn_mem (d := s.arg0.toInt) (State.effMin_lt_effMax hcal)
  obtain ⟨u, hu, hwidth⟩ := State.widthUs_storeUs (v := s.degToUs id.toNat s.arg0.toInt) hwf hlen hcal hlo hhi
  rw [mul_div_mul_div_of_dvd hcyc (Nat.dvd_of_mod_eq_zero hmod), Nat.cast_add, ← hu] at hwidth
  refine ⟨s.storeUs id.toNat (s.degToUs id.toNat s.arg0.toInt), ?write, fun s2 hcfg hch hid2 hidle2 => ?read⟩
  case write =>
    rw [exec_write_idle hidle, if_pos hid, State.writeValueUs, State.valueOperand, if_pos (by omega)]
  case read =>
    refine ⟨_, exec_read_valid hidle2 hid2, ?_⟩
    rw [State.widthUs_congr hcfg hch, hwidth, State.usToDeg_congr hcfg hch, State.usToDeg_storeUs]
    have hdeg := State.usToDeg_degToUs hbias hwide hd hd'
    rw [BitVec.toInt_ofInt, Int.bmod_eq_of_le (by omega) (by omega)]
    exact hdeg

end Sys2Proof.Machine
end

section
/-! The distance of the next match (42_scheduler.md R188) and the refresh tail (R179). -/

namespace Sys2Proof.Machine

/-! ### Ticks with no other step between them -/

theorem exec_tick {s : State} {t : Nat} (ht : t < s.cfg.numTimers) : exec (.tick t) s = .next (s.tick t) := by
  rw [exec, execTick, forTimer_lt ht]

theorem State.tick_cfg (s : State) (t : Nat) : (s.tick t).cfg = s.cfg := by
  rcases s.tick_cases t with ⟨-, h⟩ | ⟨-, -, ⟨-, h⟩ | ⟨-, -, h⟩ | ⟨-, -, h⟩⟩ <;> rw [h] <;> rfl

/-- The ticks of a timer that exists never stop, so a run of them is the tick iterated. -/
theorem ticks_eq_iterate {s : State} {t : Nat} (ht : t < s.cfg.numTimers) (m : Nat) :
    ticks t m s = .next ((State.tick · t)^[m] s) := by
  induction m generalizing s with
  | zero => rfl
  | succ m ih =>
    rw [ticks, List.replicate_succ, execList, exec_tick ht]
    exact ih (by rwa [State.tick_cfg])

/-- State s with the count of timer t gone up by m. -/
def State.counted (s : State) (t m : Nat) : State :=
  s.setTimer t { s.timer t with tcnt := (s.timer t).tcnt + BitVec.ofNat 16 m }

namespace State

variable {s : State} {t : Nat}

theorem setTimer_timer (ht : t < s.tm.length) : s.setTimer t (s.timer t) = s := by
  simp [setTimer, timer, ht]

theorem timer_counted (ht : t < s.tm.length) (m : Nat) :
    (s.counted t m).timer t = { s.timer t with tcnt := (s.timer t).tcnt + BitVec.ofNat 16 m } :=
  timer_setTimer_same s _ ht

theorem counted_zero (ht : t < s.tm.length) : s.counted t 0 = s := by
  simpa [counted] using setTimer_timer ht

/-- A tick off the distance to the match counts once more. -/
theorem tick_counted (hrun : (s.timer t).trun = true) {m : Nat}
    (hm : m % 65536 ≠ ((s.timer t).ocr - (s.timer t).tcnt - 1).toNat) :
    (s.counted t m).tick t = s.counted t (m + 1) := by
  have htimer := timer_counted (lt_of_trun s hrun) m
  rw [tick_count (by rw [htimer]; exact hrun) (by rw [htimer]; exact mt add_succ_eq_iff.mp hm), htimer, counted,
    setTimer_setTimer, counted, BitVec.ofNat_add, ← add_assoc]
  rfl

/-- A tick to the compare value makes the match pending, an overrun or not. -/
theorem timer_tick_of_match (hrun : (s.timer t).trun = true) (hm : (s.timer t).tcnt + 1 = (s.timer t).ocr) :
    ((s.tick t).timer t).ocf = true ∧ ((s.tick t).timer t).tcnt = (s.timer t).ocr := by
  have ht := lt_of_trun s hrun
  cases ho : (s.timer t).overrunDue
  · rw [tick_match hrun hm ho, timer_setTimer_same s _ ht]
    exact ⟨rfl, hm⟩
  · rw [tick_overrun hrun hm ho, raise_timer, timer_setTimer_same s _ ht]
    exact ⟨rfl, hm⟩

/-- A tick at that distance makes the match pending (R171). -/
theorem timer_tick_counted (hrun : (s.timer t).trun = true) {m : Nat}
    (hm : m % 65536 = ((s.timer t).ocr - (s.timer t).tcnt - 1).toNat) :
    (((s.counted t m).tick t).timer t).ocf = true ∧ (((s.counted t m).tick t).timer t).tcnt = (s.timer t).ocr := by
  have htimer := timer_counted (lt_of_trun s hrun) m
  have hmatch := timer_tick_of_match (s := s.counted t m) (t := t) (by rw [htimer]; exact hrun)
    (by rw [htimer]; exact add_succ_eq_iff.mpr hm)
  rwa [htimer] at hmatch

/-- Up to the distance of R188 the ticks of a running counter only count. -/
theorem iterate_tick_eq_counted (hrun : (s.timer t).trun = true) {m : Nat}
    (hm : m ≤ ((s.timer t).ocr - (s.timer t).tcnt - 1).toNat) : (State.tick · t)^[m] s = s.counted t m := by
  induction m with
  | zero => exact (counted_zero (lt_of_trun s hrun)).symm
  | succ m ih =>
    have hlt : ((s.timer t).ocr - (s.timer t).tcnt - 1).toNat < 65536 := BitVec.isLt _
    rw [Function.iterate_succ_apply', ih (by omega)]
    exact tick_counted hrun (by omega)

end State

/-- Settles O46: up to the distance the ticks only count, and the one after it is the match. -/
theorem nextMatchDistance : Obligations.NextMatchDistance := by
  rintro s t n ht - hrun rfl
  refine ⟨fun m hm => ?before, ⟨_, ticks_eq_iterate ht _, ?atMatch⟩, fun heq => ?wrap⟩
  case before =>
    rw [ticks_eq_iterate ht, State.iterate_tick_eq_counted hrun (by omega)]
    rfl
  case atMatch =>
    rw [Function.iterate_succ_apply', State.iterate_tick_eq_counted hrun le_rfl]
    exact State.timer_tick_counted hrun (Nat.mod_eq_of_lt (BitVec.isLt _))
  case wrap =>
    rw [heq, sub_self]
    rfl

/-! ### The refresh tail -/

/-- R179 on plain numbers. -/
theorem refreshTarget_eq {cfg : Config} (h : 1 ≤ cfg.prescale) (now : Word) :
    refreshTarget cfg now = BitVec.ofNat 16
      (if now.toNat + cfg.safetyMarginTicks < cfg.refreshInterval * cfg.cycPerUs / cfg.prescale then
        cfg.refreshInterval * cfg.cycPerUs / cfg.prescale
      else now.toNat + cfg.safetyMarginTicks) := by
  rw [refreshTarget, ticksPerFrame_eq h]
  split_ifs with hint hnat hnat
  · exact BitVec.ofInt_natCast 16 _
  · omega
  · omega
  · rw [BitVec.ofNat_add, BitVec.ofNat_toNat, BitVec.setWidth_eq]

/-- A service with no next slot: step 4 follows step 1, and no pin goes high (R174). -/
theorem State.service_of_not_slotExists {s : State} {t : Nat} (ht : t < s.tm.length)
    (hnone : ¬ s.slotExists t (s.timer t).nextSlot) :
    s.service t =
      { s with
        tm := s.tm.set t
          { s.timer t with
            ocf := false, tcnt := s.servedCount t, ocr := refreshTarget s.cfg (s.servedCount t), activeSlot := -1 }
        level := s.loweredLevel t } := by
  have hraises : s.raises t = false := by rw [raises, decide_eq_false hnone, Bool.false_and]
  rw [service_eq ht, servedTimer, if_neg hnone, servedLevel, hraises]
  rfl

/-- A slot not before the first exists, on integers. -/
theorem State.slotExists_toNat_iff {s : State} {t : Nat} {k : Int} (hk : 0 ≤ k) :
    s.slotExists t k.toNat ↔
      k < s.cfg.channelsPerTimer ∧ t * s.cfg.channelsPerTimer + k < s.channelCount.toNat := by
  obtain ⟨k, rfl⟩ := Int.eq_ofNat_of_zero_le hk
  exact_mod_cast Iff.rfl

theorem State.toNat_servedCount (s : State) (t : Nat) :
    (s.servedCount t).toNat = if (s.timer t).slot < 0 then 0 else (s.timer t).tcnt.toNat := by
  rw [servedCount]
  split <;> rfl

theorem State.lowers_iff (s : State) (t : Nat) :
    s.lowers t = true ↔
      0 ≤ (s.timer t).slot ∧ s.channelAt t (s.timer t).slot.toNat < s.channelCount.toNat ∧
        (s.chan (s.channelAt t (s.timer t).slot.toNat)).isActive = true := by
  rw [lowers, Bool.and_eq_true, decide_eq_true_iff, and_assoc]

/-- Settles O51: the service without a next slot, with R179's target on plain numbers. -/
theorem serviceEntersTheRefreshTail : Obligations.ServiceEntersTheRefreshTail := by
  rintro s t now frame k ht hprescale hocf hocie hgie rfl hlo hhi hnone hnow rfl
  have hserved : s.servedCount t = BitVec.ofNat 16 now := by
    rw [hnow, ← Timer.slot, ← State.toNat_servedCount, BitVec.ofNat_toNat, BitVec.setWidth_eq]
  have hslot : ¬ s.slotExists t (s.timer t).nextSlot :=
    mt (State.slotExists_toNat_iff (by rw [Timer.slot]; omega)).mp hnone
  calc exec (.service t) s
    _ = .next (s.service t) := execService_enabled ht ((serviceEnabled_iff _ _).mpr ⟨hocf, hocie, hgie⟩) hlo hhi
    _ = _ := by
      rw [State.service_of_not_slotExists (State.lt_of_ocf s hocf) hslot, refreshTarget_eq hprescale,
        State.toNat_servedCount, Timer.slot, ← hnow, hserved, State.loweredLevel]
      simp only [State.lowers_iff, Timer.slot]
      rfl

end Sys2Proof.Machine
end

section
/-! A faulted ATTACH (60_exceptions.md R203, R204): the tests of its first micro-step, in the order of R211, and the
record that each leaves. -/

namespace Sys2Proof.Machine

/-- R123: a trim is a truncated quotient, as its unit of 4 us is not 0. -/
theorem minTrimOf_eq (cfg : Config) (u : Int) : minTrimOf cfg u = Int.tdiv (cfg.minPulseWidth - u) 4 :=
  divT_of_ne (by decide)

theorem maxTrimOf_eq (cfg : Config) (u : Int) : maxTrimOf cfg u = Int.tdiv (cfg.maxPulseWidth - u) 4 :=
  divT_of_ne (by decide)

/-- The record of a code for a command word: the bits of R201 in STATUS, and the word in FINFO with the first record
(R207). -/
theorem State.raise_word (s : State) (code : FaultCode) (c : Word) :
    s.raise code c.toNat =
      { s with
        status :=
          if s.status.extractLsb' 8 4 = 0 then
            s.status ||| BitVec.ofNat 16 (256 * code.number + 2 ^ (code.number - 1))
          else s.status ||| BitVec.ofNat 16 (2 ^ (code.number - 1))
        finfo := if s.status.extractLsb' 8 4 = 0 then c else s.finfo } := by
  rw [State.raise, recordStatus_eq, recordInfo, BitVec.ofNat_toNat, BitVec.setWidth_eq]
  rfl

section FaultedAttach

variable {s : State} {id : ChannelId} (hidle : s.cu = .idle) (hid : s.valid id) (x : Bool)
include hidle hid

/-- The pin test comes first: the trims are not looked at (R204). -/
theorem exec_attach_badPin (hpin : s.cfg.numPins ≤ s.pinOperand) :
    exec (.attach x id) s = .next (s.raise .fltPin (wordOf (.attach x id)).toNat) := by
  rw [exec_attach_idle hidle, State.attachConfigure, if_neg (not_not.mpr hid), if_pos hpin]
  exact congrArg _ (State.done_eq_self (s := s.raise .fltPin _) hidle)

/-- On a pin of the board, the calibration test (R203). -/
theorem exec_attach_badCal (hpin : s.pinOperand < s.cfg.numPins)
    (hcal : ¬ calOK s.cfg (minTrimOf s.cfg (s.minUsOperand x)) (maxTrimOf s.cfg (s.maxUsOperand x))) :
    exec (.attach x id) s = .next (s.raise .fltCal (wordOf (.attach x id)).toNat) := by
  rw [exec_attach_idle hidle, State.attachConfigure, if_neg (not_not.mpr hid), if_neg (not_le.mpr hpin), if_pos hcal]
  exact congrArg _ (State.done_eq_self (s := s.raise .fltCal _) hidle)

end FaultedAttach

/-- Settles O24: each failed test is one record of the command word. -/
theorem faultedAttachOnlyRecords : Obligations.FaultedAttachOnlyRecords := by
  rintro s x id c minUs maxUs rfl hidle hid rfl rfl
  rw [← wordOf_attach]
  refine ⟨fun hpin => ?badPin, fun hpin hcal => ?badCal⟩
  case badPin =>
    rw [exec_attach_badPin hidle hid x hpin, State.raise_word]
    rfl
  case badCal =>
    rw [← minTrimOf_eq, ← maxTrimOf_eq] at hcal
    rw [exec_attach_badCal hidle hid x hpin hcal, State.raise_word]
    rfl

end Sys2Proof.Machine
end

section
/-! The round trip of command words (30_encoding.md R80 to R85, R88): the decoder on the encoder's words, and the word of
what a word decodes to. -/

namespace Sys2Proof

@[simp] theorem opField_commandWord (op : BitVec 4) (x : Bool) (id : ChannelId) : opField (commandWord op x id) = op :=
  (fields_commandWord op x id).1

@[simp] theorem rsvField_commandWord (op : BitVec 4) (x : Bool) (id : ChannelId) : rsvField (commandWord op x id) = 0 :=
  (fields_commandWord op x id).2.1

@[simp] theorem xField_commandWord (op : BitVec 4) (x : Bool) (id : ChannelId) : xField (commandWord op x id) = x :=
  (fields_commandWord op x id).2.2.1

@[simp] theorem idField_commandWord (op : BitVec 4) (x : Bool) (id : ChannelId) : idField (commandWord op x id) = id :=
  (fields_commandWord op x id).2.2.2

/-- R81, R85: the decoder gives back the instruction whose word it reads; an ILLEGAL word is one that is not legal. -/
theorem decode_of_encode {i : Instr} {c : Word} (hillegal : ∀ w, i = .illegal w → ¬ legal w) (h : encode i = some c) :
    decode c = i := by
  cases i with
  | nop | create | attach | detach | write | writeUs | read | readUs | attached => cases h; simp [decode]
  | illegal w => cases h; exact decode_of_not_legal (hillegal c rfl)
  | hostRead | hostWrite | tick | compareMatch | service | timerInit | timerShutdown => cases h

/-- R85: the OP of a legal word is one of the nine that R81 names. -/
theorem opField_mem_of_legal {c : Word} (h : legal c) :
    opField c ∈ ([0, 1, 2, 3, 4, 5, 6, 7, 8] : List (BitVec 4)) := by
  have hnine : ∀ op : BitVec 4, op.toNat ≤ 8 → op ∈ ([0, 1, 2, 3, 4, 5, 6, 7, 8] : List (BitVec 4)) := by decide
  exact hnine _ h.1

/-- A legal word decodes to the operation of its OP, whose operands are the word's own fields; those that the operation
does not have are 0 (R81, R85). -/
theorem encode_decode_of_legal {c : Word} (h : legal c) : encode (decode c) = some c := by
  obtain ⟨-, hrsv, hx, hid⟩ := id h
  have hop := opField_mem_of_legal h
  suffices hfields : encode (decode c) = some (commandWord (opField c) (xField c) (idField c)) by
    rw [hfields, commandWord_fields hrsv]
  simp only [List.mem_cons, List.not_mem_nil, or_false] at hop
  rcases hop with hop | hop | hop | hop | hop | hop | hop | hop | hop <;> rw [hop] at hx hid
  · rw [decode_nop h (by rw [hop]; rfl), hop, hx.resolve_right (by decide), hid.resolve_left (by decide)]; rfl
  · rw [decode_create h (by rw [hop]; rfl), hop, hx.resolve_right (by decide), hid.resolve_left (by decide)]; rfl
  · rw [decode_attach h (by rw [hop]; rfl), hop]; rfl
  · rw [decode_detach h (by rw [hop]; rfl), hop, hx.resolve_right (by decide)]; rfl
  · rw [decode_write h (by rw [hop]; rfl), hop, hx.resolve_right (by decide)]; rfl
  · rw [decode_writeUs h (by rw [hop]; rfl), hop, hx.resolve_right (by decide)]; rfl
  · rw [decode_read h (by rw [hop]; rfl), hop, hx.resolve_right (by decide)]; rfl
  · rw [decode_readUs h (by rw [hop]; rfl), hop, hx.resolve_right (by decide)]; rfl
  · rw [decode_attached h (by rw [hop]; rfl), hop, hx.resolve_right (by decide)]; rfl

/-- Every word is the word of what it decodes to (R88). -/
theorem encode_decode (c : Word) : encode (decode c) = some c := by
  by_cases h : legal c
  · exact encode_decode_of_legal h
  · rw [decode_of_not_legal h]; rfl

/-- R85: no legal word decodes to ILLEGAL. -/
theorem decode_ne_illegal_of_legal {c : Word} (h : legal c) (w : Word) : decode c ≠ .illegal w := by
  intro hw
  have hop := h.1
  rw [decode, if_pos h] at hw
  split at hw
  case h_10 =>
    interval_cases (opField c).toNat <;> contradiction
  all_goals cases hw

theorem not_legal_of_decode_eq_illegal {c w : Word} (h : decode c = .illegal w) : ¬ legal w := by
  obtain rfl : w = c := by
    have hword := encode_decode c
    rw [h] at hword
    exact Option.some.inj hword
  exact fun hlegal => decode_ne_illegal_of_legal hlegal w h

namespace Machine

/-- Settles O1: each word is the encoder's, or not legal. -/
theorem tableWordsDecode : Obligations.TableWordsDecode := by
  unfold Obligations.TableWordsDecode
  decide

/-- Settles O3: a well-formed ILLEGAL is one of a word that is not legal. -/
theorem decodeInvertsEncode : Obligations.DecodeInvertsEncode := by
  intro cfg i c hwf
  refine decode_of_encode fun w hi => ?_
  rw [hi] at hwf
  exact of_decide_eq_true hwf

/-- Settles O4: no word decodes to an access or an event, and one that decodes to ILLEGAL is not legal. -/
theorem encodeInvertsDecode : Obligations.EncodeInvertsDecode := by
  refine fun cfg c => ⟨encode_decode c, ?wf, isCommand_decode c⟩
  have hcommand := isCommand_decode c
  cases hi : decode c with
  | nop | create | attach | detach | write | writeUs | read | readUs | attached => rfl
  | illegal w => exact decide_eq_true (not_legal_of_decode_eq_illegal hi)
  | hostRead | hostWrite | tick | compareMatch | service | timerInit | timerShutdown =>
    rw [hi] at hcommand
    cases hcommand

/-- The word that cu names at a yield is the word that was written (40_host_port.md R102). -/
theorem wordOf_decode (c : Word) : wordOf (decode c) = c := by
  rw [wordOf, encode_decode]; rfl

theorem decode_wordOf_attach (x : Bool) (id : ChannelId) : decode (wordOf (.attach x id)) = .attach x id :=
  decode_of_encode (fun _ h => nomatch h) rfl

theorem decode_wordOf_detach (id : ChannelId) : decode (wordOf (.detach id)) = .detach id :=
  decode_of_encode (fun _ h => nomatch h) rfl

theorem decode_wordOf_create : decode (wordOf .create) = .create :=
  decode_of_encode (fun _ h => nomatch h) rfl

end Machine

end Sys2Proof
end

section
/-! All that one micro-step of a command can be (41_registry.md R130 to R139), and all that one host access can be
(40_host_port.md R100 to R105). -/

namespace Sys2Proof.Machine

/-! ### What a table write keeps -/

namespace State

/-- A part of the channels that the channel written keeps is kept by every channel. -/
theorem chan_keeps_of_set {α : Type} (part : Channel → α) {s s' : State} {i : Nat} {c : Channel}
    (hch : s'.ch = s.ch.set i c) (j : Nat) (hpart : part c = part (s.chan i) := by rfl) :
    part (s'.chan j) = part (s.chan j) := by
  have hset : s'.chan j = (s.setChan i c).chan j := by rw [chan, hch]; rfl
  rw [hset, chan_setChan]
  split
  case isTrue hij => rw [hpart, hij.1]
  case isFalse => rfl

/-- A part of the timers that the timer written keeps is kept by every timer. -/
theorem timer_keeps_of_set {α : Type} (part : Timer → α) {s s' : State} {t : Nat} {x : Timer}
    (htm : s'.tm = s.tm.set t x) (u : Nat) (hpart : part x = part (s.timer t) := by rfl) :
    part (s'.timer u) = part (s.timer u) := by
  have hset : s'.timer u = (s.setTimer t x).timer u := by rw [timer, htm]; rfl
  rw [hset, timer_setTimer]
  split
  case isTrue htu => rw [hpart, htu.1]
  case isFalse => rfl

/-- The command unit takes micro-step k of i next: its first when idle, the one that cu names at a yield (10_state.md
R42). -/
def At (s : State) (i : Instr) (k : Nat) : Prop := (s.cu = .idle ∧ k = 1) ∨ ∃ l, s.cu = .busy (wordOf i) k l

theorem At.busy {s : State} {i : Instr} {k : Nat} (h : s.At i k) (hk : k ≠ 1) : ∃ l, s.cu = .busy (wordOf i) k l :=
  h.resolve_left fun h1 => hk h1.2

end State

/-! ### One micro-step -/

/-- `MicroStep s i s'`: a micro-step of the command i that the state s may take, with the tests that lead to it and the
state s' after it. -/
inductive MicroStep (s : State) : Instr → State → Prop where
  /-- NOP (R130), and an invalid id where nothing is returned (R143). -/
  | done {i : Instr} (hat : s.At i 1) : MicroStep s i s.done
  /-- ILLEGAL (R139), and an ATTACH with a failed test (60_exceptions.md R203, R204). -/
  | record {i : Instr} (code : FaultCode) (hat : s.At i 1) (hcode : code ≠ .fltOvr)
      (hi : (∃ x id, i = .attach x id) ∨ ∃ c, i = .illegal c) : MicroStep s i (s.raise code (wordOf i).toNat).done
  /-- CREATE on a full table, READ, READ_US and ATTACHED (R131, R136 to R138). -/
  | result {i : Instr} (v : Word) (hat : s.At i 1)
      (hi : i = .create ∨ ∃ id, i = .read id ∨ i = .readUs id ∨ i = .attached id) : MicroStep s i (s.setResult v).done
  /-- WRITE and WRITE_US on a valid id (R134, R135). -/
  | store {i : Instr} {id : ChannelId} (w : Word) (hat : s.At i 1) (hid : s.valid id)
      (hi : i = .write id ∨ i = .writeUs id) :
      MicroStep s i (s.setChan id.toNat { s.chan id.toNat with pulseTicks := w }).done
  /-- CREATE, micro-step 1, while there is room (R131). -/
  | count (hat : s.At .create 1) (hroom : s.channelCount.toNat < s.cfg.maxChannels) :
      MicroStep s .create ({ s with channelCount := s.channelCount + 1 }.yieldAt (wordOf .create) 2 s.channelCount)
  /-- CREATE, micro-step 2. -/
  | width {id : ChannelId} (w v : Word) (hbusy : s.cu = .busy (wordOf .create) 2 id) :
      MicroStep s .create ((s.setChan id.toNat { s.chan id.toNat with pulseTicks := w }).setResult v).done
  /-- ATTACH, micro-step 1, on a valid id, a pin of the board and a legal calibration (R132). -/
  | configure {x : Bool} {id : ChannelId} {mt xt : Int} (hat : s.At (.attach x id) 1) (hid : s.valid id)
      (hpin : s.pinOperand < s.cfg.numPins) (hcal : calOK s.cfg mt xt) :
      MicroStep s (.attach x id)
        (((s.setOutput s.pinOperand).setChan id.toNat
          { s.chan id.toNat with
            pin := BitVec.ofNat 8 s.pinOperand, minTrim := BitVec.ofInt 8 mt, maxTrim := BitVec.ofInt 8 xt }).yieldAt
          (wordOf (.attach x id)) 2 id)
  /-- ATTACH, micro-step 2, when the timer has an active channel. -/
  | keepTimer {x : Bool} {id : ChannelId} (hat : s.At (.attach x id) 2)
      (hactive : s.timerActive (s.timerOf id.toNat) = true) :
      MicroStep s (.attach x id) (s.yieldAt (wordOf (.attach x id)) 3 id)
  /-- ATTACH, micro-step 2, when it has none. -/
  | initTimer {x : Bool} {id : ChannelId} (hat : s.At (.attach x id) 2)
      (hinactive : s.timerActive (s.timerOf id.toNat) = false) :
      MicroStep s (.attach x id)
        ((s.setTimer (s.timerOf id.toNat)
          { s.timer (s.timerOf id.toNat) with
            trun := true, tcnt := 0, ocr := BitVec.ofNat 16 s.cfg.initCompare, ocf := false, activeSlot := -1,
            ocie := true }).yieldAt (wordOf (.attach x id)) 3 id)
  /-- ATTACH, micro-step 3. -/
  | activate {x : Bool} {id : ChannelId} (hat : s.At (.attach x id) 3) :
      MicroStep s (.attach x id) (s.setChan id.toNat { s.chan id.toNat with isActive := true }).done
  /-- DETACH, micro-step 1, on a valid id (R133). -/
  | deactivate {id : ChannelId} (hat : s.At (.detach id) 1) (hid : s.valid id) :
      MicroStep s (.detach id)
        ((s.setChan id.toNat { s.chan id.toNat with isActive := false }).yieldAt (wordOf (.detach id)) 2 id)
  /-- DETACH, micro-step 2, when the timer has an active channel. -/
  | keepEnabled {id : ChannelId} (hat : s.At (.detach id) 2) (hactive : s.timerActive (s.timerOf id.toNat) = true) :
      MicroStep s (.detach id) s.done
  /-- DETACH, micro-step 2, when it has none. -/
  | shutdown {id : ChannelId} (hat : s.At (.detach id) 2) (hinactive : s.timerActive (s.timerOf id.toNat) = false) :
      MicroStep s (.detach id)
        (s.setTimer (s.timerOf id.toNat) { s.timer (s.timerOf id.toNat) with ocie := false }).done

section Inversion

variable {s s' : State}

/-- The micro-steps of a command are run where cu says. -/
theorem at_of_runCommand {i : Instr} {fs : List (State → State)} (h : runCommand (wordOf i) fs s = .next s') :
    ∃ k f, fs[k]? = some f ∧ s' = f s ∧ s.At i (k + 1) := by
  obtain ⟨k, f, hf, hs', hk⟩ := runCommand_next h
  exact ⟨k, f, hf, hs', hk.imp_left fun h => ⟨h.1, by rw [h.2]⟩⟩

/-- A command of one micro-step. -/
theorem at_of_runCommand_one {i : Instr} {f : State → State} (h : runCommand (wordOf i) [f] s = .next s') :
    s' = f s ∧ s.At i 1 := by
  obtain ⟨k, g, hg, hs', hat⟩ := at_of_runCommand h
  obtain ⟨hk, rfl⟩ := List.getElem?_eq_some_iff.mp hg
  obtain rfl : k = 0 := Nat.lt_one_iff.mp hk
  exact ⟨hs', hat⟩

theorem microStep_attachConfigure {x : Bool} {id : ChannelId} (hat : s.At (.attach x id) 1) :
    MicroStep s (.attach x id) (s.attachConfigure x id) := by
  simp only [State.attachConfigure]
  split_ifs with hid hpin hcal
  · exact .record _ hat (by decide) (.inl ⟨x, id, rfl⟩)
  · exact .configure hat hid (not_le.mp hpin) hcal
  · exact .record _ hat (by decide) (.inl ⟨x, id, rfl⟩)
  · exact .done hat

theorem microStep_attachTimer {x : Bool} {id : ChannelId} (hat : s.At (.attach x id) 2) :
    MicroStep s (.attach x id) (s.attachTimer x id) := by
  simp only [State.attachTimer]
  split_ifs with hactive
  · exact .keepTimer hat hactive
  · exact .initTimer hat (Bool.not_eq_true _ ▸ hactive)

theorem microStep_detachDeactivate {id : ChannelId} (hat : s.At (.detach id) 1) :
    MicroStep s (.detach id) (s.detachDeactivate id) := by
  simp only [State.detachDeactivate]
  split_ifs with hid
  · exact .deactivate hat hid
  · exact .done hat

theorem microStep_detachTimer {id : ChannelId} (hat : s.At (.detach id) 2) :
    MicroStep s (.detach id) (s.detachTimer id) := by
  simp only [State.detachTimer]
  split_ifs with hactive
  · exact .keepEnabled hat hactive
  · exact .shutdown hat (Bool.not_eq_true _ ▸ hactive)

theorem microStep_createCount (hat : s.At .create 1) : MicroStep s .create s.createCount := by
  simp only [State.createCount]
  split_ifs with hfull
  · exact .result _ hat (.inl rfl)
  · exact .count hat (not_le.mp hfull)

theorem microStep_createWidth (hat : s.At .create 2) : MicroStep s .create s.createWidth := by
  obtain ⟨id, hbusy⟩ := hat.busy (by decide)
  have hlocal : s.localId = id := by rw [State.localId, hbusy]
  rw [State.createWidth, hlocal]
  exact .width _ _ hbusy

/-- What a command that answers a next state has done is one of its micro-steps. -/
theorem microStep_of_exec {i : Instr} (hi : isCommand i = true) (h : exec i s = .next s') : MicroStep s i s' := by
  cases i with
  | nop =>
    obtain ⟨rfl, hat⟩ := at_of_runCommand_one h
    exact .done hat
  | illegal c =>
    obtain ⟨rfl, hat⟩ := at_of_runCommand_one (i := .illegal c) h
    exact .record _ hat (by decide) (.inr ⟨c, rfl⟩)
  | read id | readUs id | attached id =>
    obtain ⟨rfl, hat⟩ := at_of_runCommand_one h
    exact .result _ hat (.inr ⟨id, by simp⟩)
  | write id | writeUs id =>
    obtain ⟨rfl, hat⟩ := at_of_runCommand_one h
    split
    · exact .store _ hat ‹_› (by simp)
    · exact .done hat
  | create =>
    obtain ⟨k, f, hf, rfl, hat⟩ := at_of_runCommand h
    match k, hf with
    | 0, rfl => exact microStep_createCount hat
    | 1, rfl => exact microStep_createWidth hat
  | attach x id =>
    obtain ⟨k, f, hf, rfl, hat⟩ := at_of_runCommand h
    match k, hf with
    | 0, rfl => exact microStep_attachConfigure hat
    | 1, rfl => exact microStep_attachTimer hat
    | 2, rfl => exact .activate hat
  | detach id =>
    obtain ⟨k, f, hf, rfl, hat⟩ := at_of_runCommand h
    match k, hf with
    | 0, rfl => exact microStep_detachDeactivate hat
    | 1, rfl => exact microStep_detachTimer hat
  | hostRead | hostWrite | tick | compareMatch | service | timerInit | timerShutdown => cases hi

end Inversion

/-! ### One step -/

/-- `PortAccess s s'`: a host access from s to s', of a register other than CMD (40_host_port.md R100 to R105). -/
inductive PortAccess (s : State) : State → Prop where
  /-- An unsupported write records FLT_BUS (60_exceptions.md R205). -/
  | badWrite (off : Nat) : PortAccess s (s.raise .fltBus off)
  /-- An unsupported read records it too, and returns 0. -/
  | badRead (off : Nat) : PortAccess s ((s.raise .fltBus off).setReadData 0)
  /-- A supported read changes the returned data alone. -/
  | read (v : Word) : PortAccess s (s.setReadData v)
  /-- A supported write changes an operand, GIE or nothing. -/
  | write (arg0 arg1 arg2 : Word) (gie : Bool) :
      PortAccess s { s with arg0 := arg0, arg1 := arg1, arg2 := arg2, gie := gie }

theorem portAccess_of_hostRead {off n : Nat} {s s' : State} (h : exec (.hostRead off n) s = .next s') :
    s.cu = .idle ∧ PortAccess s s' := by
  have hidle : s.cu = .idle := (execHostRead_next h).1
  rw [exec_hostRead_idle hidle] at h
  split_ifs at h <;> cases h
  · exact ⟨hidle, .read _⟩
  · exact ⟨hidle, .badRead off⟩

/-- A host write is one of a register, or the first micro-step of the word written to CMD (R102). -/
theorem portAccess_or_command_of_hostWrite {off n : Nat} {v : Word} {s s' : State}
    (h : exec (.hostWrite off n v) s = .next s') :
    s.cu = .idle ∧ (PortAccess s s' ∨ exec (decode v) s = .next s') := by
  have hidle : s.cu = .idle := (execHostWrite_next h).1
  refine ⟨hidle, ?_⟩
  by_cases hsup : supported off n
  · rw [exec_hostWrite_supported hidle v hsup] at h
    split_ifs at h
    · exact .inr h
    all_goals cases h
    · exact .inl (.write v s.arg1 s.arg2 s.gie)
    · exact .inl (.write s.arg0 v s.arg2 s.gie)
    · exact .inl (.write s.arg0 s.arg1 v s.gie)
    · exact .inl (.write s.arg0 s.arg1 s.arg2 (v.getLsbD 0))
    · exact .inl (.write s.arg0 s.arg1 s.arg2 s.gie)
  · rw [exec_hostWrite_unsupported hidle v hsup] at h
    cases h
    exact .inl (.badWrite off)

theorem tick_of_exec {t : Nat} {s s' : State} (h : exec (.tick t) s = .next s') :
    t < s.cfg.numTimers ∧ s' = s.tick t := by
  change execTick t s = _ at h
  obtain ⟨ht, h⟩ := forTimer_next h
  cases h
  exact ⟨ht, rfl⟩

/-- While there is room, CREATE's count does not wrap: a table has at most 255 entries (00_scope.md R6). -/
theorem State.toNat_channelCount_succ {s : State} (hwf : s.cfg.wf) (hroom : s.channelCount.toNat < s.cfg.maxChannels) :
    (s.channelCount + 1).toNat = s.channelCount.toNat + 1 := by
  obtain ⟨-, -, hmax, -⟩ := hwf
  rw [BitVec.toNat_add]
  exact Nat.mod_eq_of_lt (show s.channelCount.toNat + 1 < 256 by omega)

/-- All that a step can be, from the state with the schedule that the step leaves: an event, an access of a register, a
micro-step of a command, or standing still. -/
theorem step_effect {s s' : State} (h : step s = .next s') :
    s.cfg.wf ∧ ∃ r : List Move,
      (∃ t, exec (.tick t) { s with pending := r } = .next s') ∨
      (∃ t, exec (.service t) { s with pending := r } = .next s') ∨
      PortAccess { s with pending := r } s' ∨
      (∃ c, MicroStep { s with pending := r } (decode c) s') ∨
      s' = { s with pending := r } := by
  obtain ⟨hwf, r, hcases⟩ := step_next h
  refine ⟨hwf, r, ?_⟩
  obtain ⟨t, ⟨-, h⟩ | ⟨-, h⟩⟩ | ⟨-, off, n, -, h⟩ | ⟨-, off, n, v, -, h⟩ | ⟨c, k, id, -, -, h⟩ | ⟨-, h⟩ := hcases
  · exact .inl ⟨t, h⟩
  · exact .inr (.inl ⟨t, h⟩)
  · exact .inr (.inr (.inl (portAccess_of_hostRead h).2))
  · obtain ⟨-, haccess | hcommand⟩ := portAccess_or_command_of_hostWrite h
    · exact .inr (.inr (.inl haccess))
    · exact .inr (.inr (.inr (.inl ⟨v, microStep_of_exec (isCommand_decode v) hcommand⟩)))
  · exact .inr (.inr (.inr (.inl ⟨c, microStep_of_exec (isCommand_decode c) h⟩)))
  · exact .inr (.inr (.inr (.inr h)))

end Sys2Proof.Machine
end

section
/-! What a command may write (60_exceptions.md R215), what an access records (R207, R211), and that only reset clears the
sticky state (70_reset_and_hazards.md R230). -/

namespace Sys2Proof.Machine

/-! ### The frame of a micro-step -/

namespace MicroStep

variable {i : Instr} {s s' : State} (h : MicroStep s i s')
include h

/-- No command drives a pin or writes the operands, the read data or GIE (90_conflicts.md C8). -/
theorem frame :
    s'.level = s.level ∧ s'.arg0 = s.arg0 ∧ s'.arg1 = s.arg1 ∧ s'.arg2 = s.arg2 ∧ s'.gie = s.gie ∧
      s'.readData = s.readData ∧ s'.pending = s.pending ∧ s'.cfg = s.cfg := by
  cases h <;> exact ⟨rfl, rfl, rfl, rfl, rfl, rfl, rfl, rfl⟩

theorem channelCount_eq (hcreate : i ≠ .create) : s'.channelCount = s.channelCount := by
  cases h with
  | count => exact absurd rfl hcreate
  | _ => rfl

theorem result_eq (hcreate : i ≠ .create) (hread : ∀ id, i ≠ .read id) (hreadUs : ∀ id, i ≠ .readUs id)
    (hattached : ∀ id, i ≠ .attached id) : s'.result = s.result := by
  cases h with
  | result v hat hi =>
    obtain hi | ⟨id, hi | hi | hi⟩ := hi
    · exact absurd hi hcreate
    · exact absurd hi (hread id)
    · exact absurd hi (hreadUs id)
    · exact absurd hi (hattached id)
  | width => exact absurd rfl hcreate
  | _ => rfl

theorem pulseTicks_eq (hcreate : i ≠ .create) (hwrite : ∀ id, i ≠ .write id) (hwriteUs : ∀ id, i ≠ .writeUs id)
    (j : Nat) : (s'.chan j).pulseTicks = (s.chan j).pulseTicks := by
  cases h with
  | store w hat hid hi =>
    obtain hi | hi := hi
    · exact absurd hi (hwrite _)
    · exact absurd hi (hwriteUs _)
  | width => exact absurd rfl hcreate
  | configure | activate | deactivate => exact State.chan_keeps_of_set Channel.pulseTicks rfl j
  | _ => rfl

/-- Only an access or a command that ends with it records, and one record at most (60_exceptions.md R211). -/
theorem records :
    (s'.status = s.status ∧ s'.finfo = s.finfo) ∨
      (s.At i 1 ∧ s'.cu = .idle ∧ ((∃ x id, i = .attach x id) ∨ ∃ c, i = .illegal c) ∧
        ∃ code info, code ≠ .fltOvr ∧ s'.status = (s.raise code info).status ∧
          s'.finfo = (s.raise code info).finfo) := by
  cases h with
  | record code hat hcode hi => exact .inr ⟨hat, rfl, hi, code, _, hcode, rfl, rfl⟩
  | _ => exact .inl ⟨rfl, rfl⟩

theorem status_eq (hattach : ∀ x id, i ≠ .attach x id) (hillegal : ∀ c, i ≠ .illegal c) :
    s'.status = s.status ∧ s'.finfo = s.finfo := by
  obtain hkept | ⟨-, -, ⟨x, id, hi⟩ | ⟨c, hi⟩, -⟩ := h.records
  · exact hkept
  · exact absurd hi (hattach x id)
  · exact absurd hi (hillegal c)

section NotAttach

variable (hattach : ∀ x id, i ≠ .attach x id)
include hattach

theorem mode_eq : s'.mode = s.mode := by
  cases h with
  | configure => exact absurd rfl (hattach _ _)
  | _ => rfl

theorem pinAndTrims_eq (j : Nat) :
    (s'.chan j).pin = (s.chan j).pin ∧ (s'.chan j).minTrim = (s.chan j).minTrim ∧
      (s'.chan j).maxTrim = (s.chan j).maxTrim := by
  cases h with
  | configure | activate => exact absurd rfl (hattach _ _)
  | store | width | deactivate =>
    exact ⟨State.chan_keeps_of_set Channel.pin rfl j, State.chan_keeps_of_set Channel.minTrim rfl j,
      State.chan_keeps_of_set Channel.maxTrim rfl j⟩
  | _ => exact ⟨rfl, rfl, rfl⟩

/-- Only ATTACH writes more of a timer than OCIE, and no other command sets OCIE. -/
theorem timer_ocie (t : Nat) :
    { s'.timer t with ocie := (s.timer t).ocie } = s.timer t ∧
      ((s'.timer t).ocie = true → (s.timer t).ocie = true) := by
  cases h with
  | initTimer => exact absurd rfl (hattach _ _)
  | shutdown =>
    rw [State.done_timer, State.timer_setTimer]
    split
    case isTrue ht => rw [← ht.1]; exact ⟨rfl, fun h => nomatch h⟩
    case isFalse => exact ⟨rfl, id⟩
  | _ => exact ⟨rfl, id⟩

variable (hdetach : ∀ id, i ≠ .detach id)
include hdetach

theorem tm_eq : s'.tm = s.tm := by
  cases h with
  | initTimer => exact absurd rfl (hattach _ _)
  | shutdown => exact absurd rfl (hdetach _)
  | _ => rfl

theorem isActive_eq (j : Nat) : (s'.chan j).isActive = (s.chan j).isActive := by
  cases h with
  | configure | activate => exact absurd rfl (hattach _ _)
  | deactivate => exact absurd rfl (hdetach _)
  | store | width => exact State.chan_keeps_of_set Channel.isActive rfl j
  | _ => rfl

end NotAttach

end MicroStep

/-- Settles O36: one lemma for each part of the state, over the micro-steps. -/
theorem commandsWriteOnlyTheirOwn : Obligations.CommandsWriteOnlyTheirOwn := by
  intro i s s' hi hexec
  have h := microStep_of_exec hi hexec
  exact ⟨h.frame, fun hattach => ⟨h.mode_eq hattach, h.pinAndTrims_eq hattach, h.timer_ocie hattach⟩,
    fun hattach hdetach => ⟨h.tm_eq hattach hdetach, h.isActive_eq hattach hdetach⟩, h.channelCount_eq, h.status_eq,
    h.result_eq, h.pulseTicks_eq⟩

/-! ### Records (60_exceptions.md R207, R211) -/

theorem PortAccess.records {s s' : State} (hidle : s.cu = .idle) (h : PortAccess s s') :
    (s'.status = s.status ∧ s'.finfo = s.finfo) ∨
      (s'.cu = .idle ∧ ∃ code info, code ≠ .fltOvr ∧ s'.status = (s.raise code info).status ∧
        s'.finfo = (s.raise code info).finfo) := by
  cases h with
  | badWrite off | badRead off => exact .inr ⟨hidle, .fltBus, off, by decide, rfl, rfl⟩
  | read | write => exact .inl ⟨rfl, rfl⟩

/-- Settles O40: the record of a CMD write is that of its first micro-step, which then is the last. -/
theorem oneRecordPerAccess : Obligations.OneRecordPerAccess := by
  refine ⟨?access, fun s s' c k id hbusy hk h => ?later⟩
  case access =>
    rintro i s s' (⟨off, n, rfl⟩ | ⟨off, n, v, rfl⟩) h
    · obtain ⟨hidle, haccess⟩ := portAccess_of_hostRead h
      exact haccess.records hidle
    · obtain ⟨hidle, haccess | hcommand⟩ := portAccess_or_command_of_hostWrite h
      · exact haccess.records hidle
      · refine (microStep_of_exec (isCommand_decode v) hcommand).records.imp_right ?_
        rintro ⟨-, hends, -, hrecord⟩
        exact ⟨hends, hrecord⟩
  case later =>
    obtain hkept | ⟨⟨hidle, -⟩ | ⟨l, hfirst⟩, -⟩ := (microStep_of_exec (isCommand_decode c) h).records
    · exact hkept
    · rw [hbusy] at hidle; cases hidle
    · rw [hbusy] at hfirst
      injection hfirst
      omega

/-- R201, R207: the bits that a record sets outside FIRST. -/
theorem getLsbD_recordStatus (code : FaultCode) (status : Word) {j : Nat} (hj : j < 8 ∨ 12 ≤ j) (hj16 : j < 16) :
    (recordStatus code status).getLsbD j = (status.getLsbD j || j == code.number - 1) := by
  have hj' : j ∈ List.range 16 := List.mem_range.mpr hj16
  have hbits : ∀ j ∈ List.range 16, (j < 8 ∨ 12 ≤ j) → ∀ k ∈ [1, 2, 3, 4, 5],
      (BitVec.ofNat 16 (256 * k + 2 ^ (k - 1))).getLsbD j = (j == k - 1) ∧
        (BitVec.ofNat 16 (2 ^ (k - 1))).getLsbD j = (j == k - 1) := by decide
  have hk : code.number ∈ [1, 2, 3, 4, 5] := by cases code <;> decide
  obtain ⟨hfirst, hlater⟩ := hbits j hj' hj _ hk
  rw [recordStatus_eq]
  split <;> rw [BitVec.getLsbD_or]
  · rw [hfirst]
  · rw [hlater]

/-- Settles O37: the bits of a record outside FIRST, and FIRST and FINFO by whether it is the first. -/
theorem firstRecordIsKept : Obligations.FirstRecordIsKept := by
  rintro s code info n rfl
  have hfirst := statusFirst_recordStatus code s.status
  exact ⟨code.number_mem, fun j hj16 hj => getLsbD_recordStatus code s.status hj hj16,
    fun hzero => ⟨hfirst.trans (if_pos hzero), if_pos hzero⟩,
    fun hlater => ⟨hfirst.trans (if_neg hlater), if_neg hlater⟩, rfl⟩

/-! ### Commands under the mask (40_host_port.md R106) -/

/-- The state with another GIE. -/
def State.withGie (b : Bool) (s : State) : State := { s with gie := b }

/-- A micro-step that reads no GIE does the same whatever it holds. -/
def MaskBlind (f : State → State) : Prop := ∀ s b, f (s.withGie b) = (f s).withGie b

/-- A command whose micro-steps are blind to GIE is, too: cu alone chooses the micro-step. -/
theorem runCommand_withGie {c : Word} {fs : List (State → State)} {s s' : State} (hfs : ∀ f ∈ fs, MaskBlind f)
    (h : runCommand c fs s = .next s') (b : Bool) : runCommand c fs (s.withGie b) = .next (s'.withGie b) := by
  obtain ⟨k, f, hf, rfl, hk⟩ := runCommand_next h
  have hstep : runCommand c fs (s.withGie b) = .next (f (s.withGie b)) := by
    obtain ⟨hidle, rfl⟩ | ⟨l, hbusy⟩ := hk
    · obtain ⟨f0, fs, rfl⟩ := List.exists_cons_of_ne_nil (List.ne_nil_of_mem (List.mem_of_getElem? hf))
      cases hf
      exact runCommand_idle (s := s.withGie b) hidle
    · exact runCommand_busy (s := s.withGie b) hbusy hf
  rw [hstep, hfs f (List.mem_of_getElem? hf) s b]

section MaskBlind

theorem done_withGie (b : Bool) (s : State) : s.done.withGie b = (s.withGie b).done := rfl

theorem yieldAt_withGie (b : Bool) (s : State) (c : Word) (k : Nat) (id : ChannelId) :
    (s.yieldAt c k id).withGie b = (s.withGie b).yieldAt c k id := rfl

variable (x : Bool) (id : ChannelId)

theorem maskBlind_createCount : MaskBlind State.createCount := fun s b => by
  simp only [State.createCount, apply_ite (State.withGie b)]
  rfl

theorem maskBlind_createWidth : MaskBlind State.createWidth := fun _ _ => rfl

theorem maskBlind_attachConfigure : MaskBlind fun s => s.attachConfigure x id := fun s b => by
  simp only [State.attachConfigure, apply_ite (State.withGie b)]
  rfl

theorem maskBlind_attachTimer : MaskBlind fun s => s.attachTimer x id := fun s b => by
  simp only [State.attachTimer, yieldAt_withGie, apply_ite (State.withGie b)]
  rfl

theorem maskBlind_attachActivate : MaskBlind fun s => s.attachActivate id := fun _ _ => rfl

theorem maskBlind_detachDeactivate : MaskBlind fun s => s.detachDeactivate id := fun s b => by
  simp only [State.detachDeactivate, apply_ite (State.withGie b)]
  rfl

theorem maskBlind_detachTimer : MaskBlind fun s => s.detachTimer id := fun s b => by
  simp only [State.detachTimer, done_withGie, apply_ite (State.withGie b)]
  rfl

end MaskBlind

/-- A command's micro-step does the same whatever GIE holds. -/
theorem exec_command_withGie {i : Instr} {s s' : State} (hi : isCommand i = true) (h : exec i s = .next s') (b : Bool) :
    exec i (s.withGie b) = .next (s'.withGie b) := by
  cases i with
  | nop | read | readUs | attached | illegal =>
    exact runCommand_withGie (List.forall_mem_singleton.mpr fun _ _ => rfl) h b
  | write | writeUs =>
    refine runCommand_withGie (List.forall_mem_singleton.mpr fun s b => ?_) h b
    simp only [done_withGie, apply_ite (State.withGie b)]
    rfl
  | create => exact runCommand_withGie (by simp [maskBlind_createCount, maskBlind_createWidth]) h b
  | attach x id =>
    exact runCommand_withGie
      (by simp [maskBlind_attachConfigure, maskBlind_attachTimer, maskBlind_attachActivate]) h b
  | detach id => exact runCommand_withGie (by simp [maskBlind_detachDeactivate, maskBlind_detachTimer]) h b
  | hostRead | hostWrite | tick | compareMatch | service | timerInit | timerShutdown => cases hi

/-- Settles O35: no micro-step of a command reads GIE, and a service needs it. -/
theorem maskedCommandsRunAlike : Obligations.MaskedCommandsRunAlike := by
  refine ⟨fun i s s' b hi h => ⟨?kept, exec_command_withGie hi h b⟩, fun s t hgie ht => ?masked⟩
  case kept =>
    obtain ⟨-, -, -, -, hgie, -⟩ := (microStep_of_exec hi h).frame
    exact hgie
  case masked =>
    refine execService_disabled ht ?_
    rw [hgie, serviceEnabled, Bool.and_false]

/-! ### What only reset clears (70_reset_and_hazards.md R230) -/

/-- From s to s' nothing is taken back that only reset clears (70_reset_and_hazards.md R230), and the configuration
stays (log 1). -/
structure State.Grows (s s' : State) : Prop where
  count : s.channelCount.toNat ≤ s'.channelCount.toNat
  status : ∀ j, s.status.getLsbD j = true → s'.status.getLsbD j = true
  first : statusFirst s.status ≠ 0 → statusFirst s'.status = statusFirst s.status ∧ s'.finfo = s.finfo
  trun : ∀ t, (s.timer t).trun = true → (s'.timer t).trun = true
  ovr : ∀ t, (s.timer t).ovr = true → (s'.timer t).ovr = true
  mode : ∀ p, s.modeOf p = true → s'.modeOf p = true
  cfg : s'.cfg = s.cfg

namespace State.Grows

variable {s s' s'' : State}

theorem trans (h : s.Grows s') (h' : s'.Grows s'') : s.Grows s'' where
  count := h.count.trans h'.count
  status j hj := h'.status j (h.status j hj)
  first hfirst := by
    obtain ⟨hs, hf⟩ := h.first hfirst
    obtain ⟨hs', hf'⟩ := h'.first (hs ▸ hfirst)
    exact ⟨hs'.trans hs, hf'.trans hf⟩
  trun t ht := h'.trun t (h.trun t ht)
  ovr t ht := h'.ovr t (h.ovr t ht)
  mode p hp := h'.mode p (h.mode p hp)
  cfg := h'.cfg.trans h.cfg

/-- A step that writes none of the sticky parts. -/
theorem of_eq (hcount : s'.channelCount = s.channelCount) (hstatus : s'.status = s.status) (hfinfo : s'.finfo = s.finfo)
    (htm : s'.tm = s.tm) (hmode : s'.mode = s.mode) (hcfg : s'.cfg = s.cfg) : s.Grows s' := by
  have htimer : ∀ t, s'.timer t = s.timer t := fun t => by rw [timer, htm]; rfl
  have hmodeOf : ∀ p, s'.modeOf p = s.modeOf p := fun p => by rw [modeOf, hmode]; rfl
  constructor <;> simp [hcount, hstatus, hfinfo, htimer, hmodeOf, hcfg]

theorem raise (code : FaultCode) (info : Nat) : s.Grows (s.raise code info) where
  count := le_rfl
  status := recordStatus_sticky code s.status
  first h := ⟨(statusFirst_recordStatus code s.status).trans (if_neg h), if_neg h⟩
  trun _ := id
  ovr _ := id
  mode _ := id
  cfg := rfl

theorem setTimer {t : Nat} {x : Timer} (htrun : (s.timer t).trun = true → x.trun = true)
    (hovr : (s.timer t).ovr = true → x.ovr = true) : s.Grows (s.setTimer t x) where
  count := le_rfl
  status _ := id
  first _ := ⟨rfl, rfl⟩
  trun u hu := by
    rw [timer_setTimer]
    split
    case isTrue htu => exact htrun (htu.1 ▸ hu)
    case isFalse => exact hu
  ovr u hu := by
    rw [timer_setTimer]
    split
    case isTrue htu => exact hovr (htu.1 ▸ hu)
    case isFalse => exact hu
  mode _ := id
  cfg := rfl

theorem setOutput (p : Nat) : s.Grows (s.setOutput p) where
  count := le_rfl
  status _ := id
  first _ := ⟨rfl, rfl⟩
  trun _ := id
  ovr _ := id
  mode q hq := by rw [modeOf_setOutput, hq, ite_self]
  cfg := rfl

theorem tick (t : Nat) : s.Grows (s.tick t) := by
  obtain ⟨-, h⟩ | ⟨-, -, ⟨-, h⟩ | ⟨-, -, h⟩ | ⟨-, -, h⟩⟩ := s.tick_cases t <;> rw [h]
  · exact of_eq rfl rfl rfl rfl rfl rfl
  · exact setTimer id id
  · exact setTimer id id
  · refine trans ?_ (raise _ _)
    exact setTimer id fun _ => rfl

theorem service {t : Nat} (ht : t < s.tm.length) : s.Grows (s.service t) := by
  have hkept : (s.servedTimer t).trun = (s.timer t).trun ∧ (s.servedTimer t).ovr = (s.timer t).ovr := by
    rw [servedTimer]
    split <;> exact ⟨rfl, rfl⟩
  rw [service_eq ht]
  refine trans (setTimer (t := t) (x := s.servedTimer t) (by simp [hkept]) (by simp [hkept])) ?_
  exact of_eq rfl rfl rfl rfl rfl rfl

theorem portAccess (h : PortAccess s s') : s.Grows s' := by
  cases h with
  | badWrite off => exact raise _ _
  | badRead off => exact trans (raise .fltBus off) (of_eq rfl rfl rfl rfl rfl rfl)
  | read | write => exact of_eq rfl rfl rfl rfl rfl rfl

theorem done (h : s.Grows s') : s.Grows s'.done := trans h (of_eq rfl rfl rfl rfl rfl rfl)

theorem yieldAt (h : s.Grows s') (c : Word) (k : Nat) (id : ChannelId) : s.Grows (s'.yieldAt c k id) :=
  trans h (of_eq rfl rfl rfl rfl rfl rfl)

theorem microStep {i : Instr} (hwf : s.cfg.wf) (h : MicroStep s i s') : s.Grows s' := by
  cases h with
  | record code => exact done (raise code _)
  | count hat hroom =>
    have hcount := toNat_channelCount_succ hwf hroom
    exact ⟨show _ ≤ (s.channelCount + 1).toNat by omega, fun _ => id, fun _ => ⟨rfl, rfl⟩, fun _ => id, fun _ => id,
      fun _ => id, rfl⟩
  | configure => exact trans (setOutput s.pinOperand) (of_eq rfl rfl rfl rfl rfl rfl)
  | initTimer =>
    refine yieldAt ?_ _ _ _
    exact setTimer (fun _ => rfl) id
  | shutdown =>
    refine done ?_
    exact setTimer id id
  | _ => exact of_eq rfl rfl rfl rfl rfl rfl

end State.Grows

theorem step_grows {s s' : State} (h : step s = .next s') : s.Grows s' := by
  obtain ⟨hwf, r, hcases⟩ := step_effect h
  refine State.Grows.trans (s' := { s with pending := r }) (.of_eq rfl rfl rfl rfl rfl rfl) ?_
  obtain ⟨t, h⟩ | ⟨t, h⟩ | haccess | ⟨c, hmicro⟩ | rfl := hcases
  · obtain ⟨-, rfl⟩ := tick_of_exec h
    exact .tick t
  · obtain ⟨-, ⟨-, rfl⟩ | ⟨-, ht, -, -, rfl⟩⟩ := execService_next h
    · exact .of_eq rfl rfl rfl rfl rfl rfl
    · exact .service ht
  · exact .portAccess haccess
  · exact .microStep hwf hmicro
  · exact .of_eq rfl rfl rfl rfl rfl rfl

/-- Settles O15: no operation takes a sticky part back, so no step does. -/
theorem onlyResetClearsStickyState : Obligations.OnlyResetClearsStickyState := by
  intro s s' h
  obtain ⟨hcount, hstatus, hfirst, htrun, hovr, hmode, hcfg⟩ := step_grows h
  exact ⟨hcount, hstatus, hfirst, htrun, hovr, hmode, hcfg⟩

end Sys2Proof.Machine
end

section
/-! The invariant (10_state.md R45, 70_reset_and_hazards.md R233, 41_registry.md R125): what each state operation keeps of
the tables, what holds at each yield of a command, and that every step keeps both. -/

namespace Sys2Proof.Machine

/-! ### The tables -/

/-- The invariant but for the command unit: all that it says of the tables, the latches and STATUS. -/
structure State.TablesOK (s : State) : Prop where
  wf : s.cfg.wf
  sizes : s.SizesOK
  count : s.CountOK
  uncreated : s.UncreatedReset
  slots : s.SlotsOK
  enabledRuns : s.EnabledRuns
  activePins : s.ActivePinsOK
  activeTimers : s.ActiveTimersOK
  trims : s.TrimsOK
  statusOK : s.StatusOK
  overruns : s.OverrunsRecorded

theorem State.inv_iff {s : State} : s.Inv ↔ s.TablesOK ∧ s.CommandOK = true :=
  ⟨fun ⟨hwf, hsizes, hcount, huncreated, hslots, hruns, hpins, htimers, htrims, hstatus, hovr, hcommand⟩ =>
    ⟨⟨hwf, hsizes, hcount, huncreated, hslots, hruns, hpins, htimers, htrims, hstatus, hovr⟩, hcommand⟩,
  fun ⟨⟨hwf, hsizes, hcount, huncreated, hslots, hruns, hpins, htimers, htrims, hstatus, hovr⟩, hcommand⟩ =>
    ⟨hwf, hsizes, hcount, huncreated, hslots, hruns, hpins, htimers, htrims, hstatus, hovr, hcommand⟩⟩

namespace State

/-- Whether a timer is active is a matter of the channels' isActive alone. -/
theorem timerActive_congr {s s' : State} (hcfg : s'.cfg = s.cfg)
    (hactive : ∀ j, (s'.chan j).isActive = (s.chan j).isActive) (t : Nat) : s'.timerActive t = s.timerActive t := by
  simp only [timerActive, timerOf, hcfg, hactive]

theorem EnabledOnlyActive.congr {s s' : State} {besides : Option Nat} (h : s.EnabledOnlyActive besides)
    (hcfg : s'.cfg = s.cfg) (hocie : ∀ t, (s'.timer t).ocie = (s.timer t).ocie)
    (hactive : ∀ j, (s'.chan j).isActive = (s.chan j).isActive) : s'.EnabledOnlyActive besides := by
  intro t ht ho
  rw [timerActive_congr hcfg hactive]
  exact h t (hcfg ▸ ht) (hocie t ▸ ho)

end State

namespace State.TablesOK

variable {s s' : State} (h : s.TablesOK)
include h

/-- The tables are the only parts that this speaks of. -/
theorem of_eq (hch : s'.ch = s.ch) (hcount : s'.channelCount = s.channelCount) (htm : s'.tm = s.tm)
    (hmode : s'.mode = s.mode) (hlevel : s'.level.length = s.level.length) (hstatus : s'.status = s.status)
    (hfinfo : s'.finfo = s.finfo) (hcfg : s'.cfg = s.cfg) : s'.TablesOK := by
  obtain ⟨hchLen, htmLen, hmodeLen, hlevelLen⟩ := h.sizes
  cases s; cases s'
  cases hch; cases hcount; cases htm; cases hmode; cases hstatus; cases hfinfo; cases hcfg
  exact { h with sizes := ⟨hchLen, htmLen, hmodeLen, hlevel.trans hlevelLen⟩ }

theorem done : s.done.TablesOK := h.of_eq rfl rfl rfl rfl rfl rfl rfl rfl

theorem yieldAt (c : Word) (k : Nat) (id : ChannelId) : (s.yieldAt c k id).TablesOK :=
  h.of_eq rfl rfl rfl rfl rfl rfl rfl rfl

theorem setResult (v : Word) : (s.setResult v).TablesOK := h.of_eq rfl rfl rfl rfl rfl rfl rfl rfl

theorem lt_ch_length {i : Nat} (hi : i < s.channelCount.toNat) : i < s.ch.length := by
  obtain ⟨hch, -⟩ := h.sizes
  exact hch ▸ hi.trans_le h.count

theorem timerOf_lt {i : Nat} (hi : i < s.channelCount.toNat) : s.timerOf i < s.cfg.numTimers :=
  State.timerOf_lt (hi.trans_le h.count)

theorem raise (code : FaultCode) (info : Nat) : (s.raise code info).TablesOK := by
  obtain ⟨hreserved, -, hrecorded⟩ := h.statusOK
  refine { h with statusOK := ⟨?reserved, fun hzero => ?none, fun _ => ?first⟩, overruns := fun t ht hovr => ?overruns }
  case reserved =>
    have hbits : (BitVec.ofNat 16 (256 * code.number + 2 ^ (code.number - 1)) &&& 0xF0E0 = 0) ∧
        (BitVec.ofNat 16 (2 ^ (code.number - 1)) &&& 0xF0E0 = 0) := by cases code <;> decide
    obtain ⟨hfirst, hlater⟩ := hbits
    rw [raise_status, recordStatus_eq]
    split <;> rw [BitVec.and_or_distrib_right, hreserved]
    · rw [hfirst]; rfl
    · rw [hlater]; rfl
  case none =>
    have hnumber : BitVec.ofNat 4 code.number ≠ 0 := by cases code <;> decide
    rw [raise_status, statusFirst_recordStatus] at hzero
    split_ifs at hzero with hfirst
    · exact absurd hzero hnumber
    · exact absurd hzero hfirst
  case first =>
    rw [raise_status, statusFirst_recordStatus]
    split_ifs with hfirst
    · have hnumber : (BitVec.ofNat 4 code.number).toNat = code.number := by cases code <;> rfl
      obtain ⟨hlo, hhi⟩ := code.number_mem
      rw [hnumber, getLsbD_recordStatus code _ (by omega) (by omega), beq_self_eq_true, Bool.or_true]
      exact ⟨hhi, rfl⟩
    · obtain ⟨hle, hbit⟩ := hrecorded hfirst
      exact ⟨hle, recordStatus_sticky code _ _ hbit⟩
  case overruns => exact recordStatus_sticky code _ _ (h.overruns t ht hovr)

theorem setOutput (p : Nat) : (s.setOutput p).TablesOK := by
  obtain ⟨hchLen, htmLen, hmodeLen, hlevelLen⟩ := h.sizes
  refine { h with
    sizes := ⟨hchLen, htmLen, by simpa using hmodeLen, hlevelLen⟩
    activePins := fun i hi ha => ?_ }
  obtain ⟨hpin, hmode⟩ := h.activePins i hi ha
  refine ⟨hpin, ?_⟩
  rw [modeOf_setOutput, setOutput_chan, hmode, ite_self]

/-- A channel written below the count, with a legal calibration, and with an output pin and an enabled timer if it is
active. -/
theorem setChan {i : Nat} {c : Channel} (hi : i < s.channelCount.toNat)
    (hpin : c.isActive = true → c.pin.toNat < s.cfg.numPins ∧ s.modeOf c.pin.toNat = true)
    (htimer : c.isActive = true → (s.timer (s.timerOf i)).ocie = true ∧ (s.timer (s.timerOf i)).trun = true)
    (htrims : calOK s.cfg c.minTrim.toInt c.maxTrim.toInt) : (s.setChan i c).TablesOK := by
  obtain ⟨hchLen, htmLen, hmodeLen, hlevelLen⟩ := h.sizes
  refine { h with
    sizes := ⟨by simpa using hchLen, htmLen, hmodeLen, hlevelLen⟩
    uncreated := fun j hj hcount => ?uncreated
    activePins := fun j hj ha => ?activePins
    activeTimers := fun t ht ha => ?activeTimers
    trims := fun j hj => ?trims }
  case uncreated =>
    have hne : i ≠ j := by rintro rfl; exact absurd hi (not_lt.mpr hcount)
    rw [chan_setChan_ne s c hne]
    exact h.uncreated j hj hcount
  case activePins =>
    rw [chan_setChan] at ha ⊢
    split_ifs at ha ⊢
    · exact hpin ha
    · exact h.activePins j hj ha
  case activeTimers =>
    obtain ⟨j, hj, rfl, hactive⟩ := (timerActive_iff _ t).mp ha
    rw [chan_setChan] at hactive
    split_ifs at hactive with hij
    · obtain ⟨rfl, -⟩ := hij
      exact htimer hactive
    · exact h.activeTimers _ ht ((timerActive_iff s _).mpr ⟨j, hj, rfl, hactive⟩)
  case trims =>
    rw [chan_setChan]
    split_ifs
    · exact htrims
    · exact h.trims j hj

/-- A timer written at a slot that it may stand at, running if enabled, enabled and running if it is active, and with an
overrun only if one is recorded. -/
theorem setTimer {t : Nat} {x : Timer}
    (hslot : -1 ≤ x.slot ∧ x.slot < s.cfg.channelsPerTimer ∧
      (0 ≤ x.slot → s.channelAt t x.slot.toNat < s.channelCount.toNat))
    (hruns : x.ocie = true → x.trun = true) (hactive : s.timerActive t = true → x.ocie = true)
    (hovr : x.ovr = true → s.status.getLsbD 4 = true) : (s.setTimer t x).TablesOK := by
  obtain ⟨hchLen, htmLen, hmodeLen, hlevelLen⟩ := h.sizes
  refine { h with
    sizes := ⟨hchLen, by simpa using htmLen, hmodeLen, hlevelLen⟩
    slots := fun u hu => ?slots
    enabledRuns := fun u hu ho => ?enabledRuns
    activeTimers := fun u hu ha => ?activeTimers
    overruns := fun u hu ho => ?overruns }
  case slots =>
    rw [timer_setTimer]
    split_ifs with htu
    · obtain ⟨rfl, -⟩ := htu
      exact hslot
    · exact h.slots u hu
  case enabledRuns =>
    rw [timer_setTimer] at ho ⊢
    split_ifs at ho ⊢
    · exact hruns ho
    · exact h.enabledRuns u hu ho
  case activeTimers =>
    rw [timer_setTimer]
    split_ifs with htu
    · obtain ⟨rfl, -⟩ := htu
      exact ⟨hactive ha, hruns (hactive ha)⟩
    · exact h.activeTimers u hu ha
  case overruns =>
    rw [timer_setTimer] at ho
    split_ifs at ho
    · exact hovr ho
    · exact h.overruns u hu ho

/-- One more channel is counted: it holds its reset values, and every slot that existed still does. -/
theorem count_succ (hroom : s.channelCount.toNat < s.cfg.maxChannels) :
    State.TablesOK { s with channelCount := s.channelCount + 1 } := by
  have hcount := toNat_channelCount_succ h.wf hroom
  refine { h with
    count := show (s.channelCount + 1).toNat ≤ s.cfg.maxChannels by omega
    uncreated := fun i hi hle => h.uncreated i hi (by change (s.channelCount + 1).toNat ≤ i at hle; omega)
    slots := fun t ht => ?_ }
  obtain ⟨hlo, hhi, hexists⟩ := h.slots t ht
  exact ⟨hlo, hhi, fun hk => (hexists hk).trans (show _ < (s.channelCount + 1).toNat by omega)⟩

end State.TablesOK

/-! ### The command unit -/

namespace State

variable {s s' : State} {k : Nat} {id l : ChannelId}

theorem commandOK_idle (hidle : s.cu = .idle) : s.CommandOK = true ↔ s.EnabledOnlyActive none := by
  rw [CommandOK, hidle]
  exact decide_eq_true_iff

theorem commandOK_create (hbusy : s.cu = .busy (wordOf .create) k l) :
    s.CommandOK = true ↔ k = 2 ∧ l.toNat + 1 = s.channelCount.toNat ∧ s.chan l.toNat = Channel.reset ∧
      s.EnabledOnlyActive none := by
  simp only [CommandOK, hbusy, decode_wordOf_create]
  exact decide_eq_true_iff

theorem commandOK_attach {x : Bool} (hbusy : s.cu = .busy (wordOf (.attach x id)) k l) :
    s.CommandOK = true ↔ l = id ∧ s.valid id ∧ (s.chan id.toNat).pin.toNat < s.cfg.numPins ∧
      s.modeOf (s.chan id.toNat).pin.toNat = true ∧
      ((k = 2 ∧ s.EnabledOnlyActive none) ∨
        (k = 3 ∧ (s.timer (s.timerOf id.toNat)).ocie = true ∧ s.EnabledOnlyActive (some (s.timerOf id.toNat)))) := by
  simp only [CommandOK, hbusy, decode_wordOf_attach]
  exact decide_eq_true_iff

theorem commandOK_detach (hbusy : s.cu = .busy (wordOf (.detach id)) k l) :
    s.CommandOK = true ↔ l = id ∧ s.valid id ∧ k = 2 ∧ s.EnabledOnlyActive (some (s.timerOf id.toNat)) := by
  simp only [CommandOK, hbusy, decode_wordOf_detach]
  exact decide_eq_true_iff

/-- A word in progress is one of the three commands that yield, and its next micro-step is not the first. -/
theorem two_le_of_commandOK {c : Word} (h : s.CommandOK = true) (hbusy : s.cu = .busy c k l) : 2 ≤ k := by
  simp only [CommandOK, hbusy] at h
  split at h
  · obtain ⟨hk, -⟩ := of_decide_eq_true h
    omega
  · obtain ⟨-, -, -, -, ⟨hk, -⟩ | ⟨hk, -⟩⟩ := of_decide_eq_true h <;> omega
  · obtain ⟨-, -, hk, -⟩ := of_decide_eq_true h
    omega
  all_goals cases h

theorem commandOK_congr (h : s.CommandOK = true) (hcu : s'.cu = s.cu) (hch : s'.ch = s.ch)
    (hcount : s'.channelCount = s.channelCount) (hmode : s'.mode = s.mode) (hcfg : s'.cfg = s.cfg)
    (hocie : ∀ t, (s'.timer t).ocie = (s.timer t).ocie) : s'.CommandOK = true := by
  have hchan : ∀ j, s'.chan j = s.chan j := fun j => by rw [chan, hch]; rfl
  have hmodeOf : ∀ p, s'.modeOf p = s.modeOf p := fun p => by rw [modeOf, hmode]; rfl
  have hactive : ∀ t, s'.timerActive t = s.timerActive t := timerActive_congr hcfg fun j => by rw [hchan]
  have henabled : ∀ besides, s'.EnabledOnlyActive besides ↔ s.EnabledOnlyActive besides := fun besides => by
    simp only [EnabledOnlyActive, hcfg, hocie, hactive]
  rw [← h, CommandOK, CommandOK, hcu]
  cases s.cu with
  | idle => exact decide_eq_decide.mpr (henabled none)
  | busy c k id =>
    dsimp only
    cases decode c with
    | create | attach | detach =>
      exact decide_eq_decide.mpr (by simp only [valid, timerOf, hcount, hcfg, hchan, hmodeOf, hocie, henabled])
    | nop | write | writeUs | read | readUs | attached | illegal | hostRead | hostWrite | tick | compareMatch | service
    | timerInit | timerShutdown => rfl

end State

namespace State.Inv

variable {s s' : State} {id : ChannelId} (h : s.Inv)
include h

theorem tablesOK : s.TablesOK := (inv_iff.mp h).1

/-- A first micro-step runs from idle, with every enabled timer active. -/
theorem enabledOnlyActive_of_at_one {i : Instr} (hat : s.At i 1) : s.EnabledOnlyActive none := by
  obtain ⟨hidle, -⟩ | ⟨l, hbusy⟩ := hat
  · exact (commandOK_idle hidle).mp h.command
  · exact absurd (two_le_of_commandOK h.command hbusy) (by decide)

end State.Inv

/-- A state in which no command is in progress. -/
theorem State.TablesOK.inv_of_idle {s : State} (h : s.TablesOK) (hidle : s.cu = .idle)
    (henabled : s.EnabledOnlyActive none) : s.Inv :=
  State.inv_iff.mpr ⟨h, (State.commandOK_idle hidle).mpr henabled⟩

/-! ### The micro-steps keep the invariant -/

section MicroSteps

variable {s : State} (h : s.Inv)
include h

theorem tablesOK_storeWidth {i : Nat} {w : Word} (hi : i < s.channelCount.toNat) :
    (s.setChan i { s.chan i with pulseTicks := w }).TablesOK := by
  have hlt := hi.trans_le h.count
  exact h.tablesOK.setChan hi (h.activePins i hlt)
    (fun ha => h.activeTimers _ (State.timerOf_lt hlt) ((s.timerActive_iff _).mpr ⟨i, hlt, rfl, ha⟩)) (h.trims i hlt)

/-- ATTACH, micro-step 1: the pin is one of the board, now an output, and the trims fit their 8 bits (R132, R125). -/
theorem inv_configure {x : Bool} {id : ChannelId} {p : Nat} {mt xt : Int} (henabled : s.EnabledOnlyActive none)
    (hid : s.valid id) (hpin : p < s.cfg.numPins) (hcal : calOK s.cfg mt xt) :
    State.Inv
      (((s.setOutput p).setChan id.toNat
        { s.chan id.toNat with
          pin := BitVec.ofNat 8 p, minTrim := BitVec.ofInt 8 mt, maxTrim := BitVec.ofInt 8 xt }).yieldAt
        (wordOf (.attach x id)) 2 id) := by
  have hlt : id.toNat < s.cfg.maxChannels := hid.trans_le h.count
  have hpinNat : (BitVec.ofNat 8 p).toNat = p := by
    obtain ⟨-, -, -, ⟨-, hpins⟩, -⟩ := h.wf
    rw [BitVec.toNat_ofNat]
    exact Nat.mod_eq_of_lt (show p < 256 by omega)
  have hmode : (s.setOutput p).modeOf (BitVec.ofNat 8 p).toNat = true := by
    obtain ⟨-, -, hmodeLen, -⟩ := h.sizes
    rw [hpinNat, State.modeOf_setOutput, if_pos ⟨rfl, hmodeLen ▸ hpin⟩]
  have htrims : (BitVec.ofInt 8 mt).toInt = mt ∧ (BitVec.ofInt 8 xt).toInt = xt := by
    obtain ⟨⟨hmt, hmt', hxt, hxt'⟩, -⟩ := hcal
    rw [BitVec.toInt_ofInt, BitVec.toInt_ofInt]
    exact ⟨Int.bmod_eq_of_le (by omega) (by omega), Int.bmod_eq_of_le (by omega) (by omega)⟩
  have htables := (h.tablesOK.setOutput p).setChan (i := id.toNat)
    (c := { s.chan id.toNat with
      pin := BitVec.ofNat 8 p, minTrim := BitVec.ofInt 8 mt, maxTrim := BitVec.ofInt 8 xt })
    hid (fun _ => ⟨by rw [hpinNat]; exact hpin, hmode⟩)
    (fun ha => h.activeTimers _ (State.timerOf_lt hlt) ((s.timerActive_iff _).mpr ⟨_, hlt, rfl, ha⟩))
    (by rw [htrims.1, htrims.2]; exact hcal)
  have hchan := State.chan_setChan_same (s.setOutput p)
    { s.chan id.toNat with pin := BitVec.ofNat 8 p, minTrim := BitVec.ofInt 8 mt, maxTrim := BitVec.ofInt 8 xt }
    (h.tablesOK.lt_ch_length hid)
  refine State.inv_iff.mpr ⟨htables.yieldAt _ _ _, (State.commandOK_attach rfl).mpr
    ⟨rfl, hid, ?pin, ?mode, .inl ⟨rfl, ?enabled⟩⟩⟩
  case pin => rw [State.yieldAt_chan, hchan, hpinNat]; exact hpin
  case mode => rw [State.yieldAt_chan, hchan]; exact hmode
  case enabled => exact henabled.congr rfl (fun _ => rfl) (State.chan_keeps_of_set Channel.isActive rfl)

/-- ATTACH, micro-step 2: the timer starts in REFRESH_WAIT, enabled for the channel that is about to become active
(R180). -/
theorem inv_initTimer {x : Bool} {id : ChannelId} (hid : s.valid id)
    (hpin : (s.chan id.toNat).pin.toNat < s.cfg.numPins) (hmode : s.modeOf (s.chan id.toNat).pin.toNat = true)
    (henabled : s.EnabledOnlyActive none) :
    State.Inv
      ((s.setTimer (s.timerOf id.toNat)
        { s.timer (s.timerOf id.toNat) with
          trun := true, tcnt := 0, ocr := BitVec.ofNat 16 s.cfg.initCompare, ocf := false, activeSlot := -1,
          ocie := true }).yieldAt (wordOf (.attach x id)) 3 id) := by
  have ht := h.tablesOK.timerOf_lt hid
  have hslot : (-1 : Byte).toInt = -1 := by decide
  obtain ⟨-, ⟨hcps, -⟩, -⟩ := h.wf
  have htables := h.tablesOK.setTimer (t := s.timerOf id.toNat)
    (x := { s.timer (s.timerOf id.toNat) with
      trun := true, tcnt := 0, ocr := BitVec.ofNat 16 s.cfg.initCompare, ocf := false, activeSlot := -1,
      ocie := true })
    (by simp only [Timer.slot, hslot]; omega) (fun _ => rfl) (fun _ => rfl) (h.overruns _ ht)
  obtain ⟨-, htmLen, -⟩ := h.sizes
  refine State.inv_iff.mpr ⟨htables.yieldAt _ _ _, (State.commandOK_attach rfl).mpr
    ⟨rfl, hid, hpin, hmode, .inr ⟨rfl, ?_, fun t ht' ho => ?_⟩⟩⟩
  · rw [State.yieldAt_timer, State.yieldAt_timerOf, State.setTimer_timerOf, State.timer_setTimer_same s _ (htmLen ▸ ht)]
  · by_cases htt : s.timerOf id.toNat = t
    · exact .inr (congrArg some htt)
    · rw [State.yieldAt_timer, State.timer_setTimer_ne s _ htt] at ho
      exact (henabled t ht' ho).imp_right nofun

/-- ATTACH, micro-step 3: the channel's pin and timer are ready since its earlier micro-steps. -/
theorem inv_activate {id : ChannelId} (hid : s.valid id)
    (hpin : (s.chan id.toNat).pin.toNat < s.cfg.numPins) (hmode : s.modeOf (s.chan id.toNat).pin.toNat = true)
    (hocie : (s.timer (s.timerOf id.toNat)).ocie = true)
    (henabled : s.EnabledOnlyActive (some (s.timerOf id.toNat))) :
    (s.setChan id.toNat { s.chan id.toNat with isActive := true }).done.Inv := by
  have hlt := hid.trans_le h.count
  have hlen := h.tablesOK.lt_ch_length hid
  have htables := h.tablesOK.setChan (c := { s.chan id.toNat with isActive := true }) hid (fun _ => ⟨hpin, hmode⟩)
    (fun _ => ⟨hocie, h.enabledRuns _ (h.tablesOK.timerOf_lt hid) hocie⟩) (h.trims _ hlt)
  refine htables.done.inv_of_idle rfl fun t ht ho => .inl ((State.timerActive_iff _ t).mpr ?_)
  obtain ha | hsome := henabled t ht ho
  · obtain ⟨j, hj, hjt, hactive⟩ := (s.timerActive_iff t).mp ha
    refine ⟨j, hj, hjt, ?_⟩
    rw [State.done_chan, State.chan_setChan]
    split
    · rfl
    · exact hactive
  · refine ⟨id.toNat, hlt, Option.some.inj hsome, ?_⟩
    rw [State.done_chan, State.chan_setChan_same s _ hlen]

/-- DETACH, micro-step 1: the channel's timer may be enabled without an active channel until micro-step 2. -/
theorem inv_deactivate {id : ChannelId} (hid : s.valid id) (henabled : s.EnabledOnlyActive none) :
    ((s.setChan id.toNat { s.chan id.toNat with isActive := false }).yieldAt (wordOf (.detach id)) 2 id).Inv := by
  have htables := h.tablesOK.setChan (c := { s.chan id.toNat with isActive := false }) hid nofun nofun
    (h.trims _ (hid.trans_le h.count))
  refine State.inv_iff.mpr ⟨htables.yieldAt _ _ _, (State.commandOK_detach rfl).mpr ⟨rfl, hid, rfl, fun t ht ho => ?_⟩⟩
  obtain ⟨j, hj, rfl, hactive⟩ := (s.timerActive_iff t).mp ((henabled t ht ho).resolve_right nofun)
  by_cases hij : id.toNat = j
  · exact .inr (by rw [← hij]; rfl)
  · refine .inl ((State.timerActive_iff _ _).mpr ⟨j, hj, rfl, ?_⟩)
    rw [State.yieldAt_chan, State.chan_setChan_ne s _ hij]
    exact hactive

/-- DETACH, micro-step 2: no channel of the timer is active, so it may be disabled (R181). -/
theorem inv_shutdown {id : ChannelId} (hid : s.valid id) (hinactive : s.timerActive (s.timerOf id.toNat) = false)
    (henabled : s.EnabledOnlyActive (some (s.timerOf id.toNat))) :
    (s.setTimer (s.timerOf id.toNat) { s.timer (s.timerOf id.toNat) with ocie := false }).done.Inv := by
  have ht := h.tablesOK.timerOf_lt hid
  have htables := h.tablesOK.setTimer (t := s.timerOf id.toNat)
    (x := { s.timer (s.timerOf id.toNat) with ocie := false })
    (h.slots _ ht) nofun (fun ha => by rw [hinactive] at ha; cases ha) (h.overruns _ ht)
  obtain ⟨-, htmLen, -⟩ := h.sizes
  refine htables.done.inv_of_idle rfl fun t ht' ho => .inl ?_
  by_cases htt : s.timerOf id.toNat = t
  · subst htt
    rw [State.done_timer, State.timer_setTimer_same s _ (htmLen ▸ ht)] at ho
    cases ho
  · rw [State.done_timer, State.timer_setTimer_ne s _ htt] at ho
    exact (henabled t ht' ho).resolve_right fun hsome => htt (Option.some.inj hsome)

/-- Every micro-step of a command keeps the invariant. -/
theorem MicroStep.inv {i : Instr} {s' : State} (hm : MicroStep s i s') : s'.Inv := by
  cases hm with
  | done hat => exact h.tablesOK.done.inv_of_idle rfl (h.enabledOnlyActive_of_at_one hat)
  | record code hat =>
    exact (h.tablesOK.raise code _).done.inv_of_idle rfl (h.enabledOnlyActive_of_at_one hat)
  | result v hat =>
    exact (h.tablesOK.setResult v).done.inv_of_idle rfl (h.enabledOnlyActive_of_at_one hat)
  | store w hat hid =>
    refine (tablesOK_storeWidth h hid).done.inv_of_idle rfl ?_
    exact (h.enabledOnlyActive_of_at_one hat).congr rfl (fun _ => rfl) (State.chan_keeps_of_set Channel.isActive rfl)
  | count hat hroom =>
    have henabled := h.enabledOnlyActive_of_at_one hat
    exact State.inv_iff.mpr ⟨(h.tablesOK.count_succ hroom).yieldAt _ _ _, (State.commandOK_create rfl).mpr
      ⟨rfl, (State.toNat_channelCount_succ h.wf hroom).symm, h.uncreated _ hroom le_rfl, henabled⟩⟩
  | @width id w v hbusy =>
    obtain ⟨-, hid, -, henabled⟩ := (State.commandOK_create hbusy).mp h.command
    refine ((tablesOK_storeWidth h (by omega)).setResult v).done.inv_of_idle rfl ?_
    exact henabled.congr rfl (fun _ => rfl) (State.chan_keeps_of_set Channel.isActive rfl)
  | configure hat hid hpin hcal =>
    exact inv_configure h (h.enabledOnlyActive_of_at_one hat) hid hpin hcal
  | keepTimer hat hactive =>
    obtain ⟨l, hbusy⟩ := hat.busy (by decide)
    obtain ⟨rfl, hid, hpin, hmode, ⟨-, henabled⟩ | ⟨hk, -⟩⟩ := (State.commandOK_attach hbusy).mp h.command
    · obtain ⟨hocie, -⟩ := h.activeTimers _ (h.tablesOK.timerOf_lt hid) hactive
      exact State.inv_iff.mpr ⟨h.tablesOK.yieldAt _ _ _, (State.commandOK_attach rfl).mpr
        ⟨rfl, hid, hpin, hmode, .inr ⟨rfl, hocie, fun t ht ho => (henabled t ht ho).imp_right nofun⟩⟩⟩
    · cases hk
  | initTimer hat hinactive =>
    obtain ⟨l, hbusy⟩ := hat.busy (by decide)
    obtain ⟨rfl, hid, hpin, hmode, ⟨-, henabled⟩ | ⟨hk, -⟩⟩ := (State.commandOK_attach hbusy).mp h.command
    · exact inv_initTimer h hid hpin hmode henabled
    · cases hk
  | activate hat =>
    obtain ⟨l, hbusy⟩ := hat.busy (by decide)
    obtain ⟨rfl, hid, hpin, hmode, ⟨hk, -⟩ | ⟨-, hocie, henabled⟩⟩ := (State.commandOK_attach hbusy).mp h.command
    · cases hk
    · exact inv_activate h hid hpin hmode hocie henabled
  | deactivate hat hid => exact inv_deactivate h hid (h.enabledOnlyActive_of_at_one hat)
  | keepEnabled hat hactive =>
    obtain ⟨l, hbusy⟩ := hat.busy (by decide)
    obtain ⟨-, -, -, henabled⟩ := (State.commandOK_detach hbusy).mp h.command
    refine h.tablesOK.done.inv_of_idle rfl fun t ht ho => .inl ?_
    obtain ha | hsome := henabled t ht ho
    · exact ha
    · cases hsome; exact hactive
  | shutdown hat hinactive =>
    obtain ⟨l, hbusy⟩ := hat.busy (by decide)
    obtain ⟨-, hid, -, henabled⟩ := (State.commandOK_detach hbusy).mp h.command
    exact inv_shutdown h hid hinactive henabled

end MicroSteps

/-! ### The events and the accesses keep it -/

section Events

variable {s : State} {t : Nat} (h : s.Inv)
include h

/-- An event's write of a timer that leaves OCIE alone. -/
theorem inv_setTimer {x : Timer} (hocie : x.ocie = (s.timer t).ocie) (hruns : x.ocie = true → x.trun = true)
    (hslot : -1 ≤ x.slot ∧ x.slot < s.cfg.channelsPerTimer ∧
      (0 ≤ x.slot → s.channelAt t x.slot.toNat < s.channelCount.toNat))
    (ht : t < s.cfg.numTimers) (hovr : x.ovr = true → s.status.getLsbD 4 = true) : (s.setTimer t x).Inv := by
  refine State.inv_iff.mpr ⟨h.tablesOK.setTimer hslot hruns (fun ha => ?_) hovr, ?_⟩
  · rw [hocie]
    exact (h.activeTimers t ht ha).1
  · exact State.commandOK_congr h.command rfl rfl rfl rfl rfl (State.timer_keeps_of_set Timer.ocie rfl · hocie)

theorem inv_raise (code : FaultCode) (info : Nat) : (s.raise code info).Inv :=
  State.inv_iff.mpr ⟨h.tablesOK.raise code info, State.commandOK_congr h.command rfl rfl rfl rfl rfl fun _ => rfl⟩

theorem inv_tick (ht : t < s.cfg.numTimers) : (s.tick t).Inv := by
  have hslot := h.slots t ht
  have hruns := h.enabledRuns t ht
  obtain ⟨-, he⟩ | ⟨hrun, -, ⟨-, he⟩ | ⟨-, -, he⟩ | ⟨-, -, he⟩⟩ := s.tick_cases t <;> rw [he]
  · exact h
  · exact inv_setTimer h rfl hruns hslot ht (h.overruns t ht)
  · exact inv_setTimer h rfl hruns hslot ht (h.overruns t ht)
  · -- the overrun is recorded in the same step
    have hrecorded : (recordStatus .fltOvr s.status).getLsbD 4 = true := by
      rw [getLsbD_recordStatus _ _ (by decide) (by decide)]
      exact Bool.or_true _
    exact inv_setTimer (inv_raise h .fltOvr t) rfl hruns hslot ht fun _ => hrecorded

end Events

/-- A slot of a timer, which has at most 127, is the number in activeSlot (10_state.md R34). -/
theorem toInt_ofNat_slot {k : Nat} (hk : k ≤ 127) : (BitVec.ofNat 8 k).toInt = k := by
  rw [BitVec.toInt_ofNat']
  exact Int.bmod_eq_of_le (by omega) (by omega)

namespace State

variable (s : State) (t : Nat)

/-- R178, R179: the slot that a service leaves its timer at. -/
theorem servedTimer_slot (hcps : s.cfg.channelsPerTimer ≤ 127) :
    (s.servedTimer t).slot = if s.slotExists t (s.timer t).nextSlot then ((s.timer t).nextSlot : Int) else -1 := by
  rw [servedTimer]
  split_ifs with hexists
  · obtain ⟨hk, -⟩ := hexists
    exact toInt_ofNat_slot (by omega)
  · exact Timer.slot_reset

@[simp] theorem servedTimer_ocie : (s.servedTimer t).ocie = (s.timer t).ocie := by
  rw [servedTimer]; split <;> rfl

@[simp] theorem servedTimer_trun : (s.servedTimer t).trun = (s.timer t).trun := by
  rw [servedTimer]; split <;> rfl

@[simp] theorem servedTimer_ovr : (s.servedTimer t).ovr = (s.timer t).ovr := by
  rw [servedTimer]; split <;> rfl

@[simp] theorem servedTimer_ocf : (s.servedTimer t).ocf = false := by
  rw [servedTimer]; split <;> rfl

@[simp] theorem length_loweredLevel : (s.loweredLevel t).length = s.level.length := by
  rw [loweredLevel]; split <;> simp

@[simp] theorem length_servedLevel : (s.servedLevel t).length = s.level.length := by
  rw [servedLevel]; split <;> simp

end State

theorem inv_service {s : State} {t : Nat} (h : s.Inv) (ht : t < s.cfg.numTimers) : (s.service t).Inv := by
  obtain ⟨-, htmLen, -⟩ := h.sizes
  obtain ⟨-, ⟨-, hcps⟩, -⟩ := h.wf
  have hslot : -1 ≤ (s.servedTimer t).slot ∧ (s.servedTimer t).slot < s.cfg.channelsPerTimer ∧
      (0 ≤ (s.servedTimer t).slot → s.channelAt t (s.servedTimer t).slot.toNat < s.channelCount.toNat) := by
    rw [s.servedTimer_slot t hcps]
    split_ifs with hexists
    · obtain ⟨hk, hcount⟩ := hexists
      exact ⟨by omega, by omega, fun _ => hcount⟩
    · exact ⟨le_rfl, by omega, fun hneg => absurd hneg (by decide)⟩
  have htimer := inv_setTimer (t := t) h (x := s.servedTimer t) (s.servedTimer_ocie t)
    (by simpa using h.enabledRuns t ht) hslot ht (by simpa using h.overruns t ht)
  rw [State.service_eq (htmLen ▸ ht)]
  exact State.inv_iff.mpr ⟨htimer.tablesOK.of_eq rfl rfl rfl rfl (s.length_servedLevel t) rfl rfl rfl,
    State.commandOK_congr htimer.command rfl rfl rfl rfl rfl fun _ => rfl⟩

/-- The schedule, the operands, GIE and the data returned are no parts of the invariant. -/
theorem State.Inv.of_eq {s s' : State} (h : s.Inv) (hch : s'.ch = s.ch) (hcount : s'.channelCount = s.channelCount)
    (htm : s'.tm = s.tm) (hmode : s'.mode = s.mode) (hlevel : s'.level = s.level) (hstatus : s'.status = s.status)
    (hfinfo : s'.finfo = s.finfo) (hcu : s'.cu = s.cu) (hcfg : s'.cfg = s.cfg) : s'.Inv :=
  State.inv_iff.mpr ⟨h.tablesOK.of_eq hch hcount htm hmode (congrArg _ hlevel) hstatus hfinfo hcfg,
    State.commandOK_congr h.command hcu hch hcount hmode hcfg fun t => by rw [State.timer, htm]; rfl⟩

theorem PortAccess.inv {s s' : State} (h : s.Inv) (haccess : PortAccess s s') : s'.Inv := by
  cases haccess with
  | badWrite off => exact inv_raise h _ _
  | badRead off => exact (inv_raise h .fltBus off).of_eq rfl rfl rfl rfl rfl rfl rfl rfl rfl
  | read | write => exact h.of_eq rfl rfl rfl rfl rfl rfl rfl rfl rfl

/-- Settles O13: each kind of step keeps the tables and what holds at the position of cu. -/
theorem everyStepKeepsTheInvariant : Obligations.EveryStepKeepsTheInvariant := by
  intro s s' h hstep
  obtain ⟨-, r, hcases⟩ := step_effect hstep
  have hr : State.Inv { s with pending := r } := h.of_eq rfl rfl rfl rfl rfl rfl rfl rfl rfl
  obtain ⟨t, htick⟩ | ⟨t, hservice⟩ | haccess | ⟨c, hmicro⟩ | rfl := hcases
  · obtain ⟨ht, rfl⟩ := tick_of_exec htick
    exact inv_tick hr ht
  · obtain ⟨ht, ⟨-, rfl⟩ | ⟨-, -, -, -, rfl⟩⟩ := execService_next hservice
    · exact hr
    · exact inv_service hr ht
  · exact haccess.inv hr
  · exact hmicro.inv hr
  · exact hr

theorem tablesOK_resetOf {cfg : Config} (hwf : cfg.wf) : (State.resetOf cfg).TablesOK := by
  have hinactive : ∀ t, (State.resetOf cfg).timerActive t = false := fun t => by
    rw [State.timerActive_eq_false]
    intro j _ _
    rw [State.resetOf_chan]
    rfl
  obtain ⟨-, ⟨hcps, -⟩, -⟩ := id hwf
  constructor
  case wf => exact hwf
  case sizes => exact ⟨List.length_replicate, List.length_replicate, List.length_replicate, List.length_replicate⟩
  case count => exact Nat.zero_le _
  case uncreated => exact fun i _ _ => State.resetOf_chan cfg i
  case slots =>
    intro t _
    rw [State.resetOf_timer, Timer.slot_reset]
    exact ⟨le_rfl, by omega, fun hneg => absurd hneg (by decide)⟩
  case enabledRuns =>
    intro t _ hocie
    rw [State.resetOf_timer] at hocie
    cases hocie
  case activePins =>
    intro i _ hactive
    rw [State.resetOf_chan] at hactive
    cases hactive
  case activeTimers =>
    intro t _ hactive
    rw [hinactive] at hactive
    cases hactive
  case trims =>
    obtain ⟨-, -, -, -, -, ⟨htrim, hwidths, -⟩, hticks, -⟩ := hwf
    have htrims : Channel.reset.minTrim.toInt = 0 ∧ Channel.reset.maxTrim.toInt = 0 := by decide
    intro i _
    rw [State.resetOf_chan, htrims.1, htrims.2, calOK, envelopeLow, envelopeHigh, mul_zero, sub_zero, sub_zero]
    exact ⟨by decide, by exact_mod_cast hwidths, sub_nonneg.mpr (by exact_mod_cast htrim), hticks⟩
  case statusOK =>
    exact ⟨(by decide : (0 : Word) &&& 0xF0E0 = 0), fun _ => ⟨rfl, rfl⟩,
      fun hfirst => (hfirst (by decide : statusFirst 0 = 0)).elim⟩
  case overruns =>
    intro t _ hovr
    rw [State.resetOf_timer] at hovr
    cases hovr

/-- Settles O12: every entry of the tables is a reset entry, and no command is in progress. -/
theorem resetMeetsTheInvariant : Obligations.ResetMeetsTheInvariant := by
  have hreset : ∀ cfg : Config, cfg.wf → (State.resetOf cfg).Inv := fun cfg hwf => by
    refine (tablesOK_resetOf hwf).inv_of_idle rfl fun t _ hocie => ?_
    rw [State.resetOf_timer] at hocie
    cases hocie
  exact ⟨hreset, hreset Config.cfgA (by decide)⟩

end Sys2Proof.Machine
end

section
/-! At most one pin of a timer is high (42_scheduler.md R183, R189): what a service does to the levels, and which steps move
a slot. -/

namespace Sys2Proof.Machine

namespace State

variable {s : State} {t : Nat}

/-! ### The slots of a timer -/

theorem timerOf_channelAt {k : Nat} (hk : k < s.cfg.channelsPerTimer) : s.timerOf (s.channelAt t k) = t := by
  rw [timerOf, channelAt, Nat.add_comm, Nat.add_mul_div_right _ _ (by omega), Nat.div_eq_of_lt hk, Nat.zero_add]

theorem slotOf_channelAt {k : Nat} (hk : k < s.cfg.channelsPerTimer) : s.slotOf (s.channelAt t k) = k := by
  rw [slotOf, channelAt, Nat.add_comm, Nat.add_mul_mod_self_right, Nat.mod_eq_of_lt hk]

/-- A channel is the one in the slot that the timer stands at. -/
theorem channelAt_slot {i : Nat} (hit : s.timerOf i = t) (hslot : (s.timer t).slot = s.slotOf i) :
    s.channelAt t (s.timer t).slot.toNat = i := by
  rw [hslot, Int.toNat_natCast, ← hit, channelAt_timerOf_slotOf]

/-- An active channel is a created one (10_state.md R45 (2)). -/
theorem Inv.lt_of_active (h : s.Inv) {i : Nat} (ha : (s.chan i).isActive = true) : i < s.channelCount.toNat := by
  obtain ⟨hch, -⟩ := h.sizes
  by_contra hle
  have hreset : s.chan i = Channel.reset := by
    by_cases hi : i < s.cfg.maxChannels
    · exact h.uncreated i hi (not_lt.mp hle)
    · rw [chan, List.getD_eq_default _ _ (by omega)]
  rw [hreset] at ha
  cases ha

/-- Two high pins of one timer's active channels are those of one slot. -/
theorem OnlySlotHigh.eq_of_high (h : s.OnlySlotHigh t) {i j : Nat} (hi : i < s.channelCount.toNat)
    (hj : j < s.channelCount.toNat) (hit : s.timerOf i = t) (hjt : s.timerOf j = t)
    (hai : (s.chan i).isActive = true) (haj : (s.chan j).isActive = true)
    (hhi : s.levelOf (s.chan i).pin.toNat = true) (hhj : s.levelOf (s.chan j).pin.toNat = true) : i = j :=
  (channelAt_slot hit (h i hi hit hai hhi)).symm.trans (channelAt_slot hjt (h j hj hjt haj hhj))

/-! ### The levels after a service -/

theorem raises_iff (s : State) (t : Nat) :
    s.raises t = true ↔ s.slotExists t (s.timer t).nextSlot ∧
      (s.chan (s.channelAt t (s.timer t).nextSlot)).isActive = true := by
  rw [raises, Bool.and_eq_true, decide_eq_true_iff]

theorem getD_set_false (l : List Bool) (p q : Nat) (b : Bool) :
    (l.set p b).getD q false = if p = q ∧ p < l.length then b else l.getD q false := by
  simp only [List.getD_eq_getElem?_getD, List.getElem?_set]
  split <;> rename_i h
  · subst h; split <;> simp_all
  · simp [h]

/-- R176: a pin that is high after the end of the pulse was high before, and is not the one that ended. -/
theorem loweredLevel_high {p : Nat} (h : (s.loweredLevel t).getD p false = true) :
    s.levelOf p = true ∧
      (s.lowers t = true → (s.chan (s.channelAt t (s.timer t).slot.toNat)).pin.toNat ≠ p) := by
  rw [loweredLevel] at h
  split at h
  case isTrue hl =>
    rw [getD_set_false] at h
    split_ifs at h with hp
    refine ⟨h, fun _ heq => hp ⟨heq, ?_⟩⟩
    by_contra hlen
    rw [List.getD_eq_default _ _ (by omega)] at h
    cases h
  case isFalse hl => exact ⟨h, fun hl' => absurd hl' hl⟩

/-- R178: a pin that is high after a service is the one that it drives high, or was high after the end of the pulse. -/
theorem servedLevel_high {p : Nat} (h : (s.servedLevel t).getD p false = true) :
    (s.raises t = true ∧ (s.chan (s.channelAt t (s.timer t).nextSlot)).pin.toNat = p) ∨
      (s.loweredLevel t).getD p false = true := by
  rw [servedLevel] at h
  split at h
  case isTrue hr =>
    rw [getD_set_false] at h
    split_ifs at h with hp
    · exact .inl ⟨hr, hp.1⟩
    · exact .inr h
  case isFalse => exact .inr h

/-- R176, R178: a service leaves every pin alone but that of the slot it stands at and that of the next. -/
theorem servedLevel_of_ne {p : Nat}
    (hlowered : s.lowers t = true → (s.chan (s.channelAt t (s.timer t).slot.toNat)).pin.toNat ≠ p)
    (hraised : s.raises t = true → (s.chan (s.channelAt t (s.timer t).nextSlot)).pin.toNat ≠ p) :
    (s.servedLevel t).getD p false = s.levelOf p := by
  have hl : (s.loweredLevel t).getD p false = s.levelOf p := by
    rw [loweredLevel]
    split
    case isTrue h => rw [getD_set_false, if_neg (by simp [hlowered h])]; rfl
    case isFalse => rfl
  rw [← hl, servedLevel]
  split
  case isTrue h => rw [getD_set_false, if_neg (by simp [hraised h])]
  case isFalse => rfl

theorem timer_service (ht : t < s.tm.length) (u : Nat) :
    (s.service t).timer u = if t = u then s.servedTimer t else s.timer u := by
  have hset : (s.service t).timer u = (s.setTimer t (s.servedTimer t)).timer u := by rw [service_eq ht]; rfl
  rw [hset, timer_setTimer]
  simp only [ht, and_true]

theorem levelOf_service (ht : t < s.tm.length) (p : Nat) :
    (s.service t).levelOf p = (s.servedLevel t).getD p false := by
  rw [service_eq ht]
  rfl

end State

/-! ### The services (42_scheduler.md R183, R189) -/

theorem channel_of_raises {s : State} {t : Nat} (hr : s.raises t = true) :
    s.channelAt t (s.timer t).nextSlot < s.channelCount.toNat ∧
      s.timerOf (s.channelAt t (s.timer t).nextSlot) = t ∧
      (s.chan (s.channelAt t (s.timer t).nextSlot)).isActive = true := by
  obtain ⟨⟨hk, hcount⟩, hactive⟩ := (s.raises_iff t).mp hr
  exact ⟨hcount, State.timerOf_channelAt hk, hactive⟩

/-- After the end of the pulse no pin of the timer's active channels is high. -/
theorem not_loweredLevel_high {s : State} {t i : Nat} (honly : s.OnlySlotHigh t) (hi : i < s.channelCount.toNat)
    (hit : s.timerOf i = t) (ha : (s.chan i).isActive = true) :
    ¬ (s.loweredLevel t).getD (s.chan i).pin.toNat false = true := by
  intro hhigh
  obtain ⟨hbefore, hlowered⟩ := State.loweredLevel_high hhigh
  have hslot := honly i hi hit ha hbefore
  have hchannel := State.channelAt_slot hit hslot
  rw [hchannel] at hlowered
  refine hlowered ((s.lowers_iff t).mpr ?_) rfl
  rw [hchannel]
  exact ⟨by omega, hi, ha⟩

section Services

variable {s : State} {t u : Nat} (h : s.Inv)
include h

theorem lt_tm_length (ht : t < s.cfg.numTimers) : t < s.tm.length := by
  obtain ⟨-, htm, -⟩ := h.sizes
  exact htm ▸ ht

/-- The channel that a service of t drives low or high is an active one of timer t. -/
theorem channel_of_lowers (ht : t < s.cfg.numTimers) (hl : s.lowers t = true) :
    s.channelAt t (s.timer t).slot.toNat < s.channelCount.toNat ∧
      s.timerOf (s.channelAt t (s.timer t).slot.toNat) = t ∧
      (s.chan (s.channelAt t (s.timer t).slot.toNat)).isActive = true := by
  obtain ⟨hslot, hcount, hactive⟩ := (s.lowers_iff t).mp hl
  obtain ⟨-, hhi, -⟩ := h.slots t ht
  exact ⟨hcount, State.timerOf_channelAt (by omega), hactive⟩

/-- R183: a service of the timer itself. -/
theorem onlySlotHigh_service (ht : t < s.cfg.numTimers) (hdistinct : s.DistinctPins t) (honly : s.OnlySlotHigh t) :
    (s.service t).OnlySlotHigh t := by
  have hlen := lt_tm_length h ht
  obtain ⟨-, ⟨-, hcps⟩, -⟩ := h.wf
  intro i hi hit ha hhigh
  rw [State.levelOf_service hlen] at hhigh
  rw [State.timer_service hlen, if_pos rfl, s.servedTimer_slot t hcps]
  rw [State.service_eq hlen] at hi hit ha hhigh ⊢
  change i < s.channelCount.toNat at hi
  change s.timerOf i = t at hit
  change (s.chan i).isActive = true at ha
  obtain ⟨hr, hpin⟩ | hlow := State.servedLevel_high hhigh
  · obtain ⟨hcount, hjt, haj⟩ := channel_of_raises hr
    obtain ⟨hexists, -⟩ := (s.raises_iff t).mp hr
    have hchannel := hdistinct _ i hcount hi hjt hit haj ha (BitVec.eq_of_toNat_eq hpin)
    rw [if_pos hexists, ← hchannel]
    exact congrArg _ (State.slotOf_channelAt hexists.1).symm
  · exact absurd hlow (not_loweredLevel_high honly hi hit ha)

/-- R189: a service of another timer, whose active channels have pins of their own. -/
theorem onlySlotHigh_service_other (hu : u < s.cfg.numTimers) (hne : u ≠ t)
    (hshared : ∀ i j, i < s.channelCount.toNat → j < s.channelCount.toNat → s.timerOf i = t → s.timerOf j ≠ t →
      (s.chan i).isActive = true → (s.chan j).isActive = true → (s.chan i).pin ≠ (s.chan j).pin)
    (honly : s.OnlySlotHigh t) : (s.service u).OnlySlotHigh t := by
  have hlen := lt_tm_length h hu
  intro i hi hit ha hhigh
  rw [State.levelOf_service hlen] at hhigh
  rw [State.timer_service hlen, if_neg hne]
  rw [State.service_eq hlen] at hi hit ha hhigh ⊢
  refine honly i hi hit ha ?_
  have hother : ∀ j, j < s.channelCount.toNat → s.timerOf j = u → (s.chan j).isActive = true →
      (s.chan j).pin.toNat ≠ (s.chan i).pin.toNat := fun j hj hju haj heq =>
    hshared i j hi hj hit (hju ▸ hne) ha haj (BitVec.eq_of_toNat_eq heq.symm)
  rw [← hhigh]
  refine (State.servedLevel_of_ne (fun hl => ?_) fun hr => ?_).symm
  · obtain ⟨hj, hju, haj⟩ := channel_of_lowers h hu hl
    exact hother _ hj hju haj
  · obtain ⟨hj, hju, haj⟩ := channel_of_raises hr
    exact hother _ hj hju haj

end Services

/-! ### The ticks, the accesses and the micro-steps -/

/-- What the property speaks of, and no more. -/
theorem State.OnlySlotHigh.of_eq {s s' : State} {t : Nat} (honly : s.OnlySlotHigh t) (hch : s'.ch = s.ch)
    (hcount : s'.channelCount = s.channelCount) (hslot : (s'.timer t).activeSlot = (s.timer t).activeSlot)
    (hlevel : s'.level = s.level) (hcfg : s'.cfg = s.cfg) : s'.OnlySlotHigh t := by
  have hchan : ∀ j, s'.chan j = s.chan j := fun j => by rw [State.chan, hch]; rfl
  have hlevelOf : ∀ p, s'.levelOf p = s.levelOf p := fun p => by rw [State.levelOf, hlevel]; rfl
  simpa only [State.OnlySlotHigh, State.timerOf, State.slotOf, Timer.slot, hcount, hchan, hlevelOf, hcfg, hslot]
    using honly

/-- A part of the timers that neither the count nor the flags OCF and OVR are in is kept by every tick (R170 to R172). -/
theorem State.timer_tick_keeps {α : Type} (part : Timer → α)
    (hpart : ∀ (x : Timer) tcnt ocf ovr, part { x with tcnt := tcnt, ocf := ocf, ovr := ovr } = part x) (s : State)
    (u t : Nat) : part ((s.tick u).timer t) = part (s.timer t) := by
  obtain ⟨-, he⟩ | ⟨-, -, ⟨-, he⟩ | ⟨-, -, he⟩ | ⟨-, -, he⟩⟩ := s.tick_cases u <;> rw [he]
  all_goals exact State.timer_keeps_of_set part rfl t (hpart _ _ _ _)

/-- A tick touches no register of the host, the registry or the command in progress (60_exceptions.md R215). -/
theorem State.tick_frame (s : State) (t : Nat) :
    (s.tick t).ch = s.ch ∧ (s.tick t).channelCount = s.channelCount ∧ (s.tick t).mode = s.mode ∧
      (s.tick t).gie = s.gie ∧ (s.tick t).arg0 = s.arg0 ∧ (s.tick t).arg1 = s.arg1 ∧ (s.tick t).arg2 = s.arg2 ∧
      (s.tick t).result = s.result ∧ (s.tick t).cu = s.cu ∧ (s.tick t).cfg = s.cfg ∧
      (s.tick t).pending = s.pending ∧ (s.tick t).readData = s.readData := by
  obtain ⟨-, he⟩ | ⟨-, -, ⟨-, he⟩ | ⟨-, -, he⟩ | ⟨-, -, he⟩⟩ := s.tick_cases t <;> rw [he]
  all_goals exact ⟨rfl, rfl, rfl, rfl, rfl, rfl, rfl, rfl, rfl, rfl, rfl, rfl⟩

theorem onlySlotHigh_tick {s : State} {t : Nat} (honly : s.OnlySlotHigh t) (u : Nat) : (s.tick u).OnlySlotHigh t := by
  have hframe : (s.tick u).ch = s.ch ∧ (s.tick u).channelCount = s.channelCount := by
    obtain ⟨-, he⟩ | ⟨-, -, ⟨-, he⟩ | ⟨-, -, he⟩ | ⟨-, -, he⟩⟩ := s.tick_cases u <;> rw [he] <;> exact ⟨rfl, rfl⟩
  exact honly.of_eq hframe.1 hframe.2 (s.timer_tick_keeps Timer.activeSlot (fun _ _ _ _ => rfl) u t) (s.tick_level u)
    (s.tick_cfg u)

/-- A command moves a slot only where it starts a timer, which has no active channel then (41_registry.md R132). -/
theorem MicroStep.activeSlot_eq {i : Instr} {s s' : State} (hm : MicroStep s i s') {t : Nat}
    (hactive : s.timerActive t = true) : (s'.timer t).activeSlot = (s.timer t).activeSlot := by
  cases hm with
  | @initTimer x id hat hinactive =>
    have hne : s.timerOf id.toNat ≠ t := by
      rintro rfl
      rw [hinactive] at hactive
      cases hactive
    rw [State.yieldAt_timer, State.timer_setTimer_ne s _ hne]
  | shutdown => exact State.timer_keeps_of_set Timer.activeSlot rfl t
  | _ => rfl

/-- R183, a command: a channel whose pin is high had it before, as the pins taken up are low. -/
theorem MicroStep.onlySlotHigh {i : Instr} {s s' : State} (h : s.Inv) (hm : MicroStep s i s') {t : Nat}
    (honly : s.OnlySlotHigh t)
    (htaken : ∀ i, i < s'.channelCount.toNat → s'.timerOf i = t → (s'.chan i).isActive = true →
      (s.chan i).isActive = false ∨ (s.chan i).pin ≠ (s'.chan i).pin → s.levelOf (s'.chan i).pin.toNat = false) :
    s'.OnlySlotHigh t := by
  obtain ⟨hlevel, -, -, -, -, -, -, hcfg⟩ := hm.frame
  intro j hj hjt ha hhigh
  have hhigh' : s.levelOf (s'.chan j).pin.toNat = true := by rwa [State.levelOf, hlevel] at hhigh
  have hjt' : s.timerOf j = t := by rwa [State.timerOf, hcfg] at hjt
  obtain ⟨hactive, hpin⟩ : (s.chan j).isActive = true ∧ (s.chan j).pin = (s'.chan j).pin := by
    have hnot := mt (htaken j hj hjt ha) (by rw [hhigh']; decide)
    push Not at hnot
    exact ⟨(Bool.not_eq_false _).mp hnot.1, hnot.2⟩
  have hj' := h.lt_of_active hactive
  have hslot := honly j hj' hjt' hactive (hpin ▸ hhigh')
  rw [Timer.slot, hm.activeSlot_eq ((s.timerActive_iff t).mpr ⟨j, hj'.trans_le h.count, hjt', hactive⟩), State.slotOf,
    hcfg]
  exact hslot

/-- Settles O55: the two kinds of steps keep the property, and one slot is one channel. -/
theorem serviceKeepsOnePinHigh : Obligations.ServiceKeepsOnePinHigh := by
  intro s s' t u h ht hdistinct honly hstep
  have honly' : s'.OnlySlotHigh t := by
    obtain hservice | htick := hstep
    · obtain ⟨-, ⟨-, rfl⟩ | ⟨-, -, -, -, rfl⟩⟩ := execService_next hservice
      · exact honly
      · exact onlySlotHigh_service h ht hdistinct honly
    · obtain ⟨-, rfl⟩ := tick_of_exec htick
      exact onlySlotHigh_tick honly u
  exact ⟨honly', fun i j => honly'.eq_of_high⟩

/-- Settles O60: the same over every step; a command may take up a pin, which is low then. -/
theorem everyStepKeepsOnePinHigh : Obligations.EveryStepKeepsOnePinHigh := by
  intro s s' t h ht hdistinct honly hshared htaken hstep
  obtain ⟨-, r, hcases⟩ := step_effect hstep
  have hr : State.Inv { s with pending := r } := h.of_eq rfl rfl rfl rfl rfl rfl rfl rfl rfl
  have honly' : s'.OnlySlotHigh t := by
    obtain ⟨u, htick⟩ | ⟨u, hservice⟩ | haccess | ⟨c, hmicro⟩ | rfl := hcases
    · obtain ⟨-, rfl⟩ := tick_of_exec htick
      exact onlySlotHigh_tick (s := { s with pending := r }) honly u
    · obtain ⟨hu, ⟨-, rfl⟩ | ⟨-, -, -, -, rfl⟩⟩ := execService_next hservice
      · exact honly
      · by_cases hut : u = t
        · subst hut
          exact onlySlotHigh_service hr ht hdistinct honly
        · exact onlySlotHigh_service_other hr hu hut hshared honly
    · cases haccess <;> exact honly
    · exact hmicro.onlySlotHigh hr honly htaken
    · exact honly
  exact ⟨honly', fun i j => honly'.eq_of_high⟩

end Sys2Proof.Machine
end

section
/-! Which agent steps, and that a step is never stuck: the schedule's head, the stalled host (40_host_port.md R102, R103),
and the micro-steps that a command takes until it ends. -/

namespace Sys2Proof.Machine

/-! ### The step of each move -/

section Moves

variable {s : State} (hwf : s.cfg.wf) {rest : List Move}
include hwf

theorem step_nil (hp : s.pending = []) : step s = resume s := by
  simp only [step, agentStep, if_pos hwf, hp]

theorem step_hostRead {off n : Nat} (hp : s.pending = .hostRead off n :: rest) :
    step s = hostStep (.hostRead off n) { s with pending := rest } s := by
  simp only [step, agentStep, if_pos hwf, hp]

theorem step_hostWrite {off n : Nat} {v : Word} (hp : s.pending = .hostWrite off n v :: rest) :
    step s = hostStep (.hostWrite off n v) { s with pending := rest } s := by
  simp only [step, agentStep, if_pos hwf, hp]

theorem step_microStep (hp : s.pending = .microStep :: rest) : step s = resume { s with pending := rest } := by
  simp only [step, agentStep, if_pos hwf, hp]

theorem step_tick {t : Nat} (hp : s.pending = .tick t :: rest) :
    step s = exec (.tick t) { s with pending := rest } := by
  simp only [step, agentStep, if_pos hwf, hp]

theorem step_service {t : Nat} (hp : s.pending = .service t :: rest) :
    step s = exec (.service t) { s with pending := rest } := by
  simp only [step, agentStep, if_pos hwf, hp]

end Moves

theorem resume_idle {s : State} (hidle : s.cu = .idle) : resume s = .next s := by
  simp only [resume, hidle]

theorem resume_busy {s : State} {c : Word} {k : Nat} {id : ChannelId} (hbusy : s.cu = .busy c k id) :
    resume s = exec (decode c) s := by
  simp only [resume, hbusy]

theorem hostStep_idle {i : Instr} {taken s : State} (hidle : s.cu = .idle) : hostStep i taken s = exec i taken := by
  simp only [hostStep, hidle]

theorem hostStep_busy {i : Instr} {taken s : State} {c : Word} {k : Nat} {id : ChannelId}
    (hbusy : s.cu = .busy c k id) : hostStep i taken s = exec (decode c) s := by
  simp only [hostStep, hbusy, resume_busy hbusy]

/-- Settles O6: one lemma for each kind of move, by the position of cu where the host or the command unit steps. -/
theorem stepRunsTheDecodedInstruction : Obligations.StepRunsTheDecodedInstruction := by
  intro s rest hwf
  refine ⟨fun c hp hidle => step_cmdWrite hwf hidle hp, fun c k id hp hbusy => ?_, fun off n hp hidle => ?_,
    fun off n v hp hidle => ?_, fun t => step_tick hwf, fun t => step_service hwf, fun hp hidle => ?_,
    fun hp hidle => ?_⟩
  · exact (step_microStep hwf hp).trans (resume_busy (s := { s with pending := rest }) hbusy)
  · exact (step_hostRead hwf hp).trans (hostStep_idle hidle)
  · exact (step_hostWrite hwf hp).trans (hostStep_idle hidle)
  · exact (step_microStep hwf hp).trans (resume_idle (s := { s with pending := rest }) hidle)
  · exact (step_nil hwf hp).trans (resume_idle hidle)

/-- The schedule is empty or an access of the host stands at its head, so no other agent steps. -/
def HostWaits (moves : List Move) : Prop :=
  moves = [] ∨ (∃ off n rest, moves = .hostRead off n :: rest) ∨ ∃ off n v rest, moves = .hostWrite off n v :: rest

/-- R102: while a word is in progress, the step is its next micro-step, and the waiting access waits on. -/
theorem step_of_hostWaits {s : State} (hwf : s.cfg.wf) {c : Word} {k : Nat} {id : ChannelId}
    (hbusy : s.cu = .busy c k id) (hwaits : HostWaits s.pending) : step s = exec (decode c) s := by
  obtain hp | ⟨off, n, rest, hp⟩ | ⟨off, n, v, rest, hp⟩ := hwaits
  · exact (step_nil hwf hp).trans (resume_busy hbusy)
  · exact (step_hostRead hwf hp).trans (hostStep_busy hbusy)
  · exact (step_hostWrite hwf hp).trans (hostStep_busy hbusy)

theorem MicroStep.pending_eq {i : Instr} {s s' : State} (h : MicroStep s i s') : s'.pending = s.pending := by
  obtain ⟨-, -, -, -, -, -, hpending, -⟩ := h.frame
  exact hpending

/-- Settles O7: the step is the command's, and no micro-step takes a move off the schedule. -/
theorem stalledHostWaits : Obligations.StalledHostWaits := by
  intro s s' c k id hwf hbusy hwaits
  have hstep := step_of_hostWaits hwf hbusy hwaits
  refine ⟨hstep, fun h => ?_⟩
  rw [hstep] at h
  exact (microStep_of_exec (isCommand_decode c) h).pending_eq

/-! ### The micro-steps of a command -/

/-- How many micro-steps a command has: one more than its yields (R103). -/
def microSteps : Instr → Nat
  | .attach _ _ => 3
  | .create | .detach _ => 2
  | _ => 1

theorem one_le_microSteps (i : Instr) : 1 ≤ microSteps i := by
  unfold microSteps
  split <;> decide

/-- A command whose next micro-step is one that it has takes it. -/
theorem runCommand_at_next {i : Instr} {fs : List (State → State)} {s : State} {k : Nat} (hat : s.At i k) (hlo : 1 ≤ k)
    (hhi : k ≤ fs.length) : ∃ s', runCommand (wordOf i) fs s = .next s' := by
  obtain ⟨k, rfl⟩ := Nat.exists_eq_add_of_le' hlo
  obtain ⟨hidle, hk⟩ | ⟨l, hbusy⟩ := hat
  · obtain ⟨f, fs, rfl⟩ := List.exists_cons_of_length_pos (by omega : 0 < fs.length)
    exact ⟨_, runCommand_idle hidle⟩
  · exact ⟨_, runCommand_busy hbusy (List.getElem?_eq_getElem (by omega : k < fs.length))⟩

theorem exec_at_next {i : Instr} {s : State} {k : Nat} (hi : isCommand i = true) (hat : s.At i k) (hlo : 1 ≤ k)
    (hhi : k ≤ microSteps i) : ∃ s', exec i s = .next s' := by
  cases i with
  | nop | create | attach | detach | write | writeUs | read | readUs | attached | illegal =>
    exact runCommand_at_next hat hlo hhi
  | hostRead | hostWrite | tick | compareMatch | service | timerInit | timerShutdown => cases hi

/-- A micro-step ends the command, or leaves it before the next one, which it has. -/
theorem MicroStep.position {i : Instr} {s s' : State} (h : MicroStep s i s') :
    s'.cu = .idle ∨ ∃ k l, s.At i k ∧ s'.cu = .busy (wordOf i) (k + 1) l ∧ k + 1 ≤ microSteps i := by
  cases h with
  | count hat | configure hat | deactivate hat => exact .inr ⟨1, _, hat, rfl, by simp [microSteps]⟩
  | keepTimer hat | initTimer hat => exact .inr ⟨2, _, hat, rfl, by simp [microSteps]⟩
  | done | record | result | store | width | activate | keepEnabled | shutdown => exact .inl rfl

theorem State.At.unique {s : State} {i : Instr} {k k' : Nat} (h : s.At i k) (h' : s.At i k') : k = k' := by
  obtain ⟨hidle, hk⟩ | ⟨l, hbusy⟩ := h <;> obtain ⟨hidle', hk'⟩ | ⟨l', hbusy'⟩ := h'
  · rw [hk, hk']
  · rw [hidle] at hbusy'; cases hbusy'
  · rw [hidle'] at hbusy; cases hbusy
  · rw [hbusy] at hbusy'; injection hbusy'

/-- The word c in progress stands at the micro-step that cu names. -/
theorem State.at_decode {s : State} {c : Word} {k : Nat} {id : ChannelId} (hbusy : s.cu = .busy c k id) :
    s.At (decode c) k :=
  .inr ⟨id, by rw [wordOf_decode]; exact hbusy⟩

theorem MicroStep.cfg_eq {i : Instr} {s s' : State} (h : MicroStep s i s') : s'.cfg = s.cfg := by
  obtain ⟨-, -, -, -, -, -, -, hcfg⟩ := h.frame
  exact hcfg

/-- While nothing but the host waits, a word in progress runs to its end in the micro-steps it has left, n at most. -/
theorem run_command_to_end {c : Word} (n : Nat) {s : State} {k : Nat} {id : ChannelId} (hwf : s.cfg.wf)
    (hbusy : s.cu = .busy c k id) (hlo : 1 ≤ k) (hhi : k ≤ microSteps (decode c))
    (hn : k + n = microSteps (decode c) + 1) (hwaits : HostWaits s.pending) :
    ∃ (m : Nat) (s' : State), m ≤ n ∧ Host.Core.run core m s = .next s' ∧ s'.cu = .idle ∧ s'.pending = s.pending := by
  induction n generalizing s k id with
  | zero => omega
  | succ n ih =>
    obtain ⟨s1, hexec⟩ := exec_at_next (isCommand_decode c) (State.at_decode hbusy) hlo hhi
    have hstep : step s = .next s1 := (step_of_hostWaits hwf hbusy hwaits).trans hexec
    have hmicro := microStep_of_exec (isCommand_decode c) hexec
    obtain hidle | ⟨k', l, hat, hbusy', hle⟩ := hmicro.position
    · exact ⟨1, s1, by omega, run_succ hstep 0, hidle, hmicro.pending_eq⟩
    · obtain rfl : k' = k := hat.unique (State.at_decode hbusy)
      rw [wordOf_decode] at hbusy'
      obtain ⟨m, s', hm, hrun, hidle, hpending⟩ := ih (hmicro.cfg_eq ▸ hwf) hbusy' (by omega) hle (by omega)
        (hmicro.pending_eq ▸ hwaits)
      exact ⟨m + 1, s', by omega, (run_succ hstep m).trans hrun, hidle, hpending.trans hmicro.pending_eq⟩

/-- A CMD write runs to its end in the micro-steps of its command. -/
theorem run_cmdWrite {s : State} {c : Word} {rest : List Move} (hwf : s.cfg.wf) (hidle : s.cu = .idle)
    (hp : s.pending = .hostWrite 0x000 2 c :: rest) (hwaits : HostWaits rest) :
    ∃ (n : Nat) (s' : State), 1 ≤ n ∧ n ≤ microSteps (decode c) ∧ Host.Core.run core n s = .next s' ∧ s'.cu = .idle ∧
      s'.pending = rest := by
  have hat : State.At { s with pending := rest } (decode c) 1 := .inl ⟨hidle, rfl⟩
  obtain ⟨s1, hexec⟩ := exec_at_next (isCommand_decode c) hat le_rfl (one_le_microSteps _)
  have hstep : step s = .next s1 := (step_cmdWrite hwf hidle hp).trans hexec
  have hmicro := microStep_of_exec (isCommand_decode c) hexec
  obtain hends | ⟨k, l, hk, hbusy, hle⟩ := hmicro.position
  · exact ⟨1, s1, le_rfl, one_le_microSteps _, run_succ hstep 0, hends, hmicro.pending_eq⟩
  · obtain rfl : k = 1 := hk.unique hat
    rw [wordOf_decode] at hbusy
    obtain ⟨m, s', hm, hrun, hends, hpending⟩ := run_command_to_end (microSteps (decode c) - 1)
      (hmicro.cfg_eq ▸ hwf) hbusy (by omega) hle (by omega) (hmicro.pending_eq ▸ hwaits)
    exact ⟨m + 1, s', by omega, by omega, (run_succ hstep m).trans hrun, hends, hpending.trans hmicro.pending_eq⟩

/-- Settles O8: the steps are the command's micro-steps. -/
theorem commandCompletesInItsMicroSteps : Obligations.CommandCompletesInItsMicroSteps := by
  intro s c rest hwf hidle hp hwaits
  obtain ⟨n, s', hlo, hhi, hrun, hends, hpending⟩ := run_cmdWrite hwf hidle hp hwaits
  refine ⟨n, s', hlo, hrun, hends, hpending, fun x id hi => ?_, fun id hi => ?_, fun hattach hdetach hcreate => ?_⟩
  · rw [hi] at hhi
    exact hhi
  · obtain hi | hi := hi <;> rw [hi] at hhi <;> exact hhi
  · have hone : microSteps (decode c) = 1 := by
      unfold microSteps
      split
      · exact absurd ‹_› (hattach _ _)
      · exact absurd ‹_› hcreate
      · exact absurd ‹_› (hdetach _)
      · rfl
    omega

/-! ### No step is stuck (60_exceptions.md) -/

/-- At a yield cu names a micro-step that its command has. -/
theorem le_microSteps_of_commandOK {s : State} {c : Word} {k : Nat} {id : ChannelId} (h : s.CommandOK = true)
    (hbusy : s.cu = .busy c k id) : k ≤ microSteps (decode c) := by
  simp only [State.CommandOK, hbusy] at h
  revert h
  cases decode c with
  | create =>
    intro h
    obtain ⟨hk, -⟩ := of_decide_eq_true h
    exact hk.le
  | attach x i =>
    intro h
    obtain ⟨-, -, -, -, ⟨hk, -⟩ | ⟨hk, -⟩⟩ := of_decide_eq_true h
    · exact hk ▸ (by decide : 2 ≤ 3)
    · exact hk.le
  | detach i =>
    intro h
    obtain ⟨-, -, hk, -⟩ := of_decide_eq_true h
    exact hk.le
  | nop | write | writeUs | read | readUs | attached | illegal | hostRead | hostWrite | tick | compareMatch | service
  | timerInit | timerShutdown => exact nofun

theorem exec_hostRead_next {s : State} (hidle : s.cu = .idle) (off n : Nat) :
    ∃ s', exec (.hostRead off n) s = .next s' := by
  rw [exec_hostRead_idle hidle]
  split_ifs <;> exact ⟨_, rfl⟩

theorem exec_hostWrite_next {s : State} (hidle : s.cu = .idle) (off n : Nat) (v : Word) :
    ∃ s', exec (.hostWrite off n v) s = .next s' := by
  by_cases hsup : supported off n
  · rw [exec_hostWrite_supported hidle v hsup]
    split_ifs
    · exact exec_at_next (isCommand_decode v) (.inl ⟨hidle, rfl⟩) le_rfl (one_le_microSteps _)
    all_goals exact ⟨_, rfl⟩
  · exact ⟨_, exec_hostWrite_unsupported hidle v hsup⟩

section NeverStops

variable {s : State} (h : s.Inv)
include h

theorem exec_busy_next {c : Word} {k : Nat} {id : ChannelId} (hbusy : s.cu = .busy c k id) :
    ∃ s', exec (decode c) s = .next s' :=
  exec_at_next (isCommand_decode c) (State.at_decode hbusy)
    ((by decide : 1 ≤ 2).trans (State.two_le_of_commandOK h.command hbusy)) (le_microSteps_of_commandOK h.command hbusy)

theorem resume_next_of_inv : ∃ s', resume s = .next s' := by
  cases hcu : s.cu with
  | idle => exact ⟨s, resume_idle hcu⟩
  | busy c k id =>
    rw [resume_busy hcu]
    exact exec_busy_next h hcu

theorem hostStep_next {i : Instr} {taken : State} (hi : s.cu = .idle → ∃ s', exec i taken = .next s') :
    ∃ s', hostStep i taken s = .next s' := by
  rcases hcu : s.cu with _ | ⟨c, k, id⟩
  · rw [hostStep_idle hcu]
    exact hi hcu
  · rw [hostStep_busy hcu]
    exact exec_busy_next h hcu

theorem exec_service_next {t : Nat} (ht : t < s.cfg.numTimers) : ∃ s', exec (.service t) s = .next s' := by
  obtain ⟨hlo, hhi, -⟩ := h.slots t ht
  cases henabled : serviceEnabled (s.timer t) s.gie
  · exact ⟨s, execService_disabled ht henabled⟩
  · exact ⟨_, execService_enabled ht henabled hlo hhi⟩

end NeverStops

/-- Settles O14: by the head of the schedule and the position of cu. -/
theorem invariantStatesNeverStop : Obligations.InvariantStatesNeverStop := by
  intro s h htimers
  have hrest : ∀ r : List Move, State.Inv { s with pending := r } := fun r =>
    h.of_eq rfl rfl rfl rfl rfl rfl rfl rfl rfl
  cases hp : s.pending with
  | nil =>
    rw [step_nil h.wf hp]
    exact resume_next_of_inv h
  | cons move rest =>
    cases move with
    | microStep =>
      rw [step_microStep h.wf hp]
      exact resume_next_of_inv (hrest rest)
    | tick t =>
      rw [step_tick h.wf hp]
      exact ⟨_, exec_tick (s := { s with pending := rest }) (htimers t rest (.inl hp))⟩
    | service t =>
      rw [step_service h.wf hp]
      exact exec_service_next (hrest rest) (htimers t rest (.inr hp))
    | hostRead off n =>
      rw [step_hostRead h.wf hp]
      exact hostStep_next h fun hidle => exec_hostRead_next (s := { s with pending := rest }) hidle off n
    | hostWrite off n v =>
      rw [step_hostWrite h.wf hp]
      exact hostStep_next h fun hidle => exec_hostWrite_next (s := { s with pending := rest }) hidle off n v

end Sys2Proof.Machine
end

section
/-! The register map's control registers and GPIO windows (20_memory.md R61, R64, R67), the byte images (R65), and the
configurations that run (00_scope.md R5, R6). -/

namespace Sys2Proof.Machine

/-! ### Bytes (R65) -/

/-- A register is its two bytes, the low one first. -/
theorem extract_append_extract (v : Word) : v.extractLsb' 8 8 ++ v.extractLsb' 0 8 = v := by
  apply BitVec.eq_of_toNat_eq
  have hlt : v.toNat < 65536 := v.isLt
  rw [toNat_append_eq_add, BitVec.extractLsb'_toNat, BitVec.extractLsb'_toNat, Nat.shiftRight_eq_div_pow,
    Nat.shiftRight_eq_div_pow]
  omega

/-- Settles O5: an even offset and the one after it show the two halves of one register. -/
theorem byteImagesAreLittleEndian : Obligations.ByteImagesAreLittleEndian := by
  refine ⟨fun s off heven => ?register, fun lo hi rest => ⟨hi ++ lo, rfl, ?word⟩⟩
  case register =>
    rw [State.regByte, State.regByte, if_neg (by omega), if_pos heven, Nat.add_sub_cancel]
    exact extract_append_extract _
  case word =>
    rw [toNat_append_eq_add]
    omega

/-! ### Configurations (00_scope.md R5, R6) -/

/-- Settles O9: R6 is tested by every step, and R5's constants are definitions. -/
theorem onlyWellFormedConfigurationsRun : Obligations.OnlyWellFormedConfigurationsRun := by
  refine ⟨fun s hwf => if_neg hwf, by decide, by decide, fun cfg hwf => ⟨rfl, rfl, rfl, rfl, rfl, ?_⟩⟩
  obtain ⟨-, hprescale⟩ := Config.divisors_pos_of_wf hwf
  exact ticksPerFrame_eq hprescale

/-! ### The control registers (R61, R67) -/

/-- R67: the offsets between the blocks and the windows, and after the control registers. -/
theorem State.regval_reserved (s : State) {off : Nat}
    (h : (0x012 ≤ off ∧ off ≤ 0x01F) ∨ (0x060 ≤ off ∧ off ≤ 0x0FF) ∨ (0x8F8 ≤ off ∧ off ≤ 0x8FF) ∨
      (0x940 ≤ off ∧ off ≤ 0xFFF)) : s.regval off = 0 := by
  unfold regval
  repeat rw [if_neg (by omega)]

/-- Settles O41: each control register by its offset. -/
theorem controlRegistersRead : Obligations.ControlRegistersRead := by
  intro s
  have hgie : (BitVec.ofBool s.gie).setWidth 16 = BitVec.ofNat 16 s.gie.toNat := by cases s.gie <;> rfl
  have hcount : s.channelCount.setWidth 16 = BitVec.ofNat 16 s.channelCount.toNat := (BitVec.ofNat_toNat 16 _).symm
  exact ⟨rfl, rfl, rfl, rfl, rfl, rfl, hgie, hcount, rfl, fun off => s.regval_reserved⟩

/-! ### The GPIO windows (R64) -/

theorem getLsbD_gpioWord (latches : List Bool) (k : Nat) {j : Nat} (hj : j < 16) :
    (gpioWord latches k).getLsbD j = latches.getD (16 * k + j) false := by
  rw [gpioWord, BitVec.getLsbD_ofFnLE, dif_pos hj]

/-- Settles O43: a bit of a window is one latch, and there is none beyond the pins. -/
theorem gpioWindowShowsTheLatches : Obligations.GpioWindowShowsTheLatches := by
  intro s k j hk hj hmode hlevel
  rw [s.regval_modeWindow hk, s.regval_levelWindow hk, getLsbD_gpioWord _ _ hj, getLsbD_gpioWord _ _ hj]
  exact ⟨rfl, rfl, fun hpins => ⟨List.getD_eq_default _ _ (by omega), List.getD_eq_default _ _ (by omega)⟩⟩

end Sys2Proof.Machine
end

section
/-! ATTACH on operands that pass its tests (41_registry.md R132), and DETACH repeated (R133). -/

namespace Sys2Proof.Machine

/-! ### ATTACH -/

/-- No test of the first micro-step fails: the pin becomes an output, and the channel takes it and the trims. -/
theorem exec_attach_configure {s : State} {x : Bool} {id : ChannelId} (hidle : s.cu = .idle) (hid : s.valid id)
    (hpin : s.pinOperand < s.cfg.numPins)
    (hcal : calOK s.cfg (minTrimOf s.cfg (s.minUsOperand x)) (maxTrimOf s.cfg (s.maxUsOperand x))) :
    exec (.attach x id) s =
      .next (((s.setOutput s.pinOperand).setChan id.toNat
        { s.chan id.toNat with
          pin := BitVec.ofNat 8 s.pinOperand
          minTrim := BitVec.ofInt 8 (minTrimOf s.cfg (s.minUsOperand x))
          maxTrim := BitVec.ofInt 8 (maxTrimOf s.cfg (s.maxUsOperand x)) }).yieldAt (wordOf (.attach x id)) 2 id) := by
  rw [exec_attach_idle hidle, State.attachConfigure, if_neg (not_not.mpr hid), if_neg (not_le.mpr hpin),
    if_neg (not_not.mpr hcal)]

/-- Settles O22: the trims of R123 as truncated quotients. -/
theorem attachConfiguresPinAndTrims : Obligations.AttachConfiguresPinAndTrims := by
  rintro s x id minUs maxUs mt xt hidle hid hpin rfl rfl rfl rfl hcal
  rw [← minTrimOf_eq, ← maxTrimOf_eq] at hcal ⊢
  rw [exec_attach_configure hidle hid hpin hcal, wordOf_attach]
  rfl

section AttachYields

variable {s : State} {x : Bool} {id l : ChannelId}

theorem exec_attach_timer (hbusy : s.cu = .busy (wordOf (.attach x id)) 2 l) :
    exec (.attach x id) s = .next (s.attachTimer x id) :=
  runCommand_busy (f := fun s => s.attachTimer x id) hbusy rfl

theorem exec_attach_activate (hbusy : s.cu = .busy (wordOf (.attach x id)) 3 l) :
    exec (.attach x id) s = .next (s.attachActivate id) :=
  runCommand_busy (f := fun s => s.attachActivate id) hbusy rfl

theorem State.attachTimer_of_active (h : s.timerActive (s.timerOf id.toNat) = true) :
    s.attachTimer x id = s.yieldAt (wordOf (.attach x id)) 3 id := by
  rw [attachTimer, if_pos h]

theorem State.attachTimer_of_inactive (h : s.timerActive (s.timerOf id.toNat) = false) :
    s.attachTimer x id = (s.timerInit (s.timerOf id.toNat)).yieldAt (wordOf (.attach x id)) 3 id := by
  rw [attachTimer, if_neg (by rw [h]; decide)]

end AttachYields

/-- Settles O23: micro-step 2 by whether the timer has an active channel (R129), and micro-step 3. -/
theorem attachInitialisesThenActivates : Obligations.AttachInitialisesThenActivates := by
  rintro s x id c t rfl rfl
  rw [← wordOf_attach]
  refine ⟨fun hbusy hactive => ?active, fun hbusy hnone => ?inactive, fun hbusy => exec_attach_activate hbusy⟩
  case active => rw [exec_attach_timer hbusy, State.attachTimer_of_active ((s.timerActive_iff _).mpr hactive)]; rfl
  case inactive =>
    rw [exec_attach_timer hbusy, State.attachTimer_of_inactive ((s.timerActive_eq_false _).mpr hnone)]
    rfl

/-! ### DETACH twice (R133) -/

/-- Writing an entry of a table as it reads changes nothing. -/
theorem set_getD_self {α : Type} (l : List α) (i : Nat) (d : α) : l.set i (l.getD i d) = l := by
  by_cases hi : i < l.length
  · rw [List.getD_eq_getElem _ _ hi, List.set_getElem_self]
  · exact List.set_eq_of_length_le (by omega)

theorem State.setChan_chan (s : State) (i : Nat) : s.setChan i (s.chan i) = s :=
  congrArg (fun l => { s with ch := l }) (set_getD_self s.ch i Channel.reset)

theorem State.setTimer_timer_self (s : State) (t : Nat) : s.setTimer t (s.timer t) = s :=
  congrArg (fun l => { s with tm := l }) (set_getD_self s.tm t Timer.reset)

/-- DETACH's second micro-step ends the command wherever cu stood. -/
theorem State.detachTimer_yieldAt (s : State) (c : Word) (k : Nat) (l id : ChannelId) :
    (s.yieldAt c k l).detachTimer id = s.detachTimer id := by
  cases h : s.timerActive (s.timerOf id.toNat)
  · rw [detachTimer_of_inactive h, detachTimer_of_inactive (s := s.yieldAt c k l) h]; rfl
  · rw [detachTimer_of_active h, detachTimer_of_active (s := s.yieldAt c k l) h]; rfl

section DetachPair

variable {s : State} {id : ChannelId} (hidle : s.cu = .idle) (hid : s.valid id)
include hidle hid

/-- The two micro-steps of DETACH with no other step between them. -/
theorem execList_detach :
    execList [.detach id, .detach id] s =
      .next ((s.setChan id.toNat { s.chan id.toNat with isActive := false }).detachTimer id) := by
  have hfirst := exec_detach_idle (id := id) hidle
  rw [State.detachDeactivate, if_pos hid] at hfirst
  have hsecond := exec_detach_timer (id := id) (l := id)
    (s := (s.setChan id.toNat { s.chan id.toNat with isActive := false }).yieldAt (wordOf (.detach id)) 2 id)
    (by rw [State.yieldAt_cu, wordOf_detach])
  simp only [execList, hfirst, hsecond, State.detachTimer_yieldAt]

/-- A detached channel whose timer is active or disabled is detached already. -/
theorem execList_detach_detached (hdetached : (s.chan id.toNat).isActive = false)
    (htimer : s.timerActive (s.timerOf id.toNat) = true ∨ (s.timer (s.timerOf id.toNat)).ocie = false) :
    execList [.detach id, .detach id] s = .next s := by
  have hchan : { s.chan id.toNat with isActive := false } = s.chan id.toNat := by rw [← hdetached]
  rw [execList_detach hidle hid, hchan, State.setChan_chan]
  refine congrArg _ ?_
  cases hactive : s.timerActive (s.timerOf id.toNat)
  · have hocie := htimer.resolve_left (by rw [hactive]; decide)
    have htimerEq : { s.timer (s.timerOf id.toNat) with ocie := false } = s.timer (s.timerOf id.toNat) := by
      rw [← hocie]
    rw [State.detachTimer_of_inactive hactive]
    show (s.setTimer (s.timerOf id.toNat) { s.timer (s.timerOf id.toNat) with ocie := false }).done = s
    rw [htimerEq, State.setTimer_timer_self, State.done_eq_self hidle]
  · rw [State.detachTimer_of_active hactive]
    exact State.done_eq_self hidle

end DetachPair

/-- A timer that is shut down is disabled, in the table or not. -/
theorem State.ocie_timerShutdown (s : State) (t : Nat) : ((s.timerShutdown t).timer t).ocie = false := by
  rw [timerShutdown, timer_setTimer]
  split
  case isTrue => rfl
  case isFalse ht =>
    rw [timer_of_le s (by simpa using ht)]
    rfl

/-- A channel written inactive is inactive, in the table or not. -/
theorem State.isActive_setChan_false (s : State) (i : Nat) :
    ((s.setChan i { s.chan i with isActive := false }).chan i).isActive = false := by
  rw [chan_setChan]
  split
  case isTrue => rfl
  case isFalse hi =>
    rw [chan, List.getD_eq_default _ _ (by simpa using hi)]
    rfl

/-- Settles O26: the first DETACH leaves its channel detached, and of such a one nothing changes. -/
theorem detachTwiceIsDetachOnce : Obligations.DetachTwiceIsDetachOnce := by
  intro s id hidle hid
  have hdetached := s.isActive_setChan_false id.toNat
  have hpair := execList_detach hidle hid
  have hcount : (s.setChan id.toNat { s.chan id.toNat with isActive := false }).channelCount = s.channelCount := rfl
  generalize s.setChan id.toNat { s.chan id.toNat with isActive := false } = u at hdetached hpair hcount
  have hid' : u.valid id := by rw [State.valid, hcount]; exact hid
  refine ⟨u.detachTimer id, hpair, rfl, ?_⟩
  cases hactive : u.timerActive (u.timerOf id.toNat)
  · rw [State.detachTimer_of_inactive hactive]
    exact ⟨hdetached, execList_detach_detached rfl hid' hdetached (.inr (u.ocie_timerShutdown _))⟩
  · rw [State.detachTimer_of_active hactive]
    exact ⟨hdetached, execList_detach_detached rfl hid' hdetached (.inl hactive)⟩

end Sys2Proof.Machine
end

section
/-! The counters and the sequencers (42_scheduler.md): the effects of a tick, of its parts and of a service, and what an
event leaves alone. -/

namespace Sys2Proof.Machine

/-! ### The counter (R170 to R172, R180, R181) -/

/-- The record of FLT_OVR: bit 4, and code 5 in FIRST with the first record (60_exceptions.md R206, R207). -/
theorem State.raise_fltOvr (s : State) (info : Nat) :
    s.raise .fltOvr info =
      { s with
        status := if s.status.extractLsb' 8 4 = 0 then s.status ||| 0x0510 else s.status ||| 0x0010
        finfo := if s.status.extractLsb' 8 4 = 0 then BitVec.ofNat 16 info else s.finfo } := by
  rw [State.raise, recordStatus_eq]
  rfl

theorem Timer.overrunDue_iff (x : Timer) : x.overrunDue = true ↔ x.ocf = true ∧ x.ocie = true := by
  rw [overrunDue, Bool.and_eq_true]

theorem Timer.overrunDue_eq_false_iff (x : Timer) : x.overrunDue = false ↔ x.ocf = false ∨ x.ocie = false := by
  rw [overrunDue, Bool.and_eq_false_iff]

/-- Settles O44: the four cases of a tick. -/
theorem tickCountsAndMatches : Obligations.TickCountsAndMatches := by
  intro s t ht _
  rw [exec_tick ht]
  refine ⟨fun hstop => congrArg _ (State.tick_stopped hstop), fun hrun hm => congrArg _ (State.tick_count hrun hm),
    fun hrun hm hfree => congrArg _ (State.tick_match hrun hm ((Timer.overrunDue_eq_false_iff _).mpr hfree)),
    fun hrun hm hocf hocie => ?overrun⟩
  case overrun =>
    rw [State.tick_overrun hrun hm ((Timer.overrunDue_iff _).mpr ⟨hocf, hocie⟩), State.raise_fltOvr]
    rfl

theorem State.compareMatch_free {s : State} {t : Nat} (h : (s.timer t).overrunDue = false) :
    s.compareMatch t = s.setTimer t { s.timer t with ocf := true } := by
  rw [compareMatch, if_neg (by rw [h]; decide)]

theorem State.compareMatch_overrun {s : State} {t : Nat} (h : (s.timer t).overrunDue = true) :
    s.compareMatch t = (s.setTimer t { s.timer t with ovr := true, ocf := true }).raise .fltOvr t := by
  rw [compareMatch, if_pos h]

section SubSteps

variable {s : State} {t : Nat} (ht : t < s.cfg.numTimers)
include ht

theorem exec_compareMatch : exec (.compareMatch t) s = .next (s.compareMatch t) := by
  rw [exec, execCompareMatch, forTimer_lt ht]

theorem exec_timerInit : exec (.timerInit t) s = .next (s.timerInit t) := by
  rw [exec, execTimerInit, forTimer_lt ht]

theorem exec_timerShutdown : exec (.timerShutdown t) s = .next (s.timerShutdown t) := by
  rw [exec, execTimerShutdown, forTimer_lt ht]

end SubSteps

/-- Settles O45: each part by itself, on a timer of the configuration. -/
theorem subStepEffects : Obligations.SubStepEffects := by
  intro s t ht
  refine ⟨fun hfree => ?free, fun hocf hocie => ?overrun, exec_timerInit ht, exec_timerShutdown ht⟩
  case free => rw [exec_compareMatch ht, State.compareMatch_free ((Timer.overrunDue_eq_false_iff _).mpr hfree)]; rfl
  case overrun =>
    have hpending : { s.timer t with ovr := true, ocf := true } = { s.timer t with ovr := true } := by
      simp only [hocf]
    rw [exec_compareMatch ht, State.compareMatch_overrun ((Timer.overrunDue_iff _).mpr ⟨hocf, hocie⟩), hpending,
      State.raise_fltOvr]
    rfl

/-! ### Where an event stops or stands still (R173) -/

theorem forTimer_absent {t : Nat} {s : State} (h : s.cfg.numTimers ≤ t)
    (f : State → Host.Outcome State Fault Refusal) : forTimer t s f = .refused .noSuchTimer :=
  if_neg (not_lt.mpr h)

/-- Settles O47: the test of the timer, and the test of the slot. -/
theorem eventsStopOffTheConfiguration : Obligations.EventsStopOffTheConfiguration := by
  intro s t
  refine ⟨fun h => ?absent, fun ht henabled hslot => ?slot⟩
  case absent =>
    simp only [exec, execTick, execService, execCompareMatch, execTimerInit, execTimerShutdown, forTimer_absent h,
      and_self]
  case slot => rw [exec, execService, forTimer_lt ht, if_pos henabled]; exact if_pos hslot

theorem serviceEnabled_eq_false {x : Timer} {gie : Bool} (h : x.ocf = false ∨ x.ocie = false ∨ gie = false) :
    serviceEnabled x gie = false := by
  obtain h | h | h := h <;> simp [serviceEnabled, h]

/-- Settles O48. -/
theorem serviceNeedsAllThreeEnables : Obligations.ServiceNeedsAllThreeEnables :=
  fun _ _ ht h => execService_disabled ht (serviceEnabled_eq_false h)

/-! ### A service that starts a pulse (R174 to R178) -/

/-- A service with a next slot: step 3 follows step 1. -/
theorem State.servedTimer_of_slotExists {s : State} {t : Nat} (h : s.slotExists t (s.timer t).nextSlot) :
    s.servedTimer t =
      { s.timer t with
        ocf := false, tcnt := s.servedCount t
        ocr := s.servedCount t + (s.chan (s.channelAt t (s.timer t).nextSlot)).pulseTicks
        activeSlot := BitVec.ofNat 8 (s.timer t).nextSlot } := if_pos h

theorem State.servedLevel_of_slotExists {s : State} {t : Nat} (h : s.slotExists t (s.timer t).nextSlot) :
    s.servedLevel t =
      if (s.chan (s.channelAt t (s.timer t).nextSlot)).isActive then
        (s.loweredLevel t).set (s.chan (s.channelAt t (s.timer t).nextSlot)).pin.toNat true
      else s.loweredLevel t := by
  rw [servedLevel, raises, decide_eq_true h, Bool.true_and]

/-- Settles O49: in REFRESH_WAIT no pulse ends, and the next slot is slot 0. -/
theorem serviceStartsTheFrame : Obligations.ServiceStartsTheFrame := by
  rintro s t c ht hocf hocie hgie hslot hcps hcount rfl
  have hslot' : (s.timer t).slot = -1 := by rw [Timer.slot, hslot]; decide
  have hnext : (s.timer t).nextSlot = 0 := by rw [Timer.nextSlot, hslot']; rfl
  have hexists : s.slotExists t (s.timer t).nextSlot := by rw [hnext]; exact ⟨hcps, hcount⟩
  have hlow : s.loweredLevel t = s.level := by
    rw [State.loweredLevel, if_neg]
    rw [State.lowers_iff, hslot']
    simp
  have hnow : s.servedCount t = 0 := by rw [State.servedCount, hslot']; rfl
  calc exec (.service t) s
    _ = .next (s.service t) :=
      execService_enabled ht ((serviceEnabled_iff _ _).mpr ⟨hocf, hocie, hgie⟩) (by omega) (by omega)
    _ = _ := by
      rw [State.service_eq (State.lt_of_ocf s hocf), State.servedTimer_of_slotExists hexists,
        State.servedLevel_of_slotExists hexists, hlow, hnow, hnext, zero_add]
      rfl

/-- Settles O50: the slot that ends is slot k, the one that starts is slot k + 1. -/
theorem serviceMovesToTheNextSlot : Obligations.ServiceMovesToTheNextSlot := by
  rintro s t k i j ht hcps hocf hocie hgie hslot hk rfl rfl hcount
  have hslot' : (s.timer t).slot = k := by rw [Timer.slot, hslot]; exact toInt_ofNat_slot (by omega)
  have hnext : (s.timer t).nextSlot = k + 1 := by rw [Timer.nextSlot, hslot']; omega
  have hexists : s.slotExists t (s.timer t).nextSlot := by rw [hnext]; exact ⟨hk, hcount⟩
  have hlow : s.loweredLevel t =
      if (s.chan (s.channelAt t k)).isActive then s.level.set (s.chan (s.channelAt t k)).pin.toNat false
      else s.level := by
    have hcount' : s.channelAt t k < s.channelCount.toNat := (Nat.lt_succ_self _).trans hcount
    simp only [State.loweredLevel, State.lowers_iff, hslot', Int.toNat_natCast, Int.natCast_nonneg, hcount', true_and]
  have hnow : s.servedCount t = (s.timer t).tcnt := by rw [State.servedCount, hslot', if_neg (by omega)]
  calc exec (.service t) s
    _ = .next (s.service t) :=
      execService_enabled ht ((serviceEnabled_iff _ _).mpr ⟨hocf, hocie, hgie⟩) (by omega) (by omega)
    _ = _ := by
      rw [State.service_eq (State.lt_of_ocf s hocf), State.servedTimer_of_slotExists hexists,
        State.servedLevel_of_slotExists hexists, hlow, hnow, hnext]
      rfl

/-! ### What an event leaves alone (60_exceptions.md R212, R215) -/

theorem State.timer_tick_ne (s : State) {t u : Nat} (h : t ≠ u) : (s.tick t).timer u = s.timer u := by
  obtain ⟨-, he⟩ | ⟨-, -, ⟨-, he⟩ | ⟨-, -, he⟩ | ⟨-, -, he⟩⟩ := s.tick_cases t <;> rw [he]
  · exact s.timer_setTimer_ne _ h
  · exact s.timer_setTimer_ne _ h
  · exact s.timer_setTimer_ne _ h

/-- A disabled timer's tick overruns nothing: it counts, and sets OCF at most (R171, R172). -/
theorem State.timer_tick_disabled {s : State} {t : Nat} (h : (s.timer t).ocie = false) :
    ((s.tick t).timer t).ovr = (s.timer t).ovr ∧
      ((s.timer t).ocf = true → ((s.tick t).timer t).ocf = true) := by
  obtain ⟨-, he⟩ | ⟨-, ht, ⟨-, he⟩ | ⟨-, -, he⟩ | ⟨-, hover, -⟩⟩ := s.tick_cases t
  · rw [he]
    exact ⟨rfl, id⟩
  · rw [he, timer_setTimer_same s _ ht]
    exact ⟨rfl, id⟩
  · rw [he, timer_setTimer_same s _ ht]
    exact ⟨rfl, fun _ => rfl⟩
  · rw [(Timer.overrunDue_eq_false_iff _).mpr (.inr h)] at hover
    cases hover

/-- The sequencer of timer t stands still from s to s': its compare interrupt is disabled and stays so, and neither
activeSlot, OCR, OVR nor a pending match is lost (R181). -/
def State.StaysDisabled (s : State) (t : Nat) (s' : State) : Prop :=
  (s'.timer t).ocie = false ∧ (s'.timer t).activeSlot = (s.timer t).activeSlot ∧
    (s'.timer t).ocr = (s.timer t).ocr ∧ (s'.timer t).ovr = (s.timer t).ovr ∧
    ((s.timer t).ocf = true → (s'.timer t).ocf = true)

theorem State.StaysDisabled.of_timer_eq {s s' : State} {t : Nat} (hocie : (s.timer t).ocie = false)
    (h : s'.timer t = s.timer t) : s.StaysDisabled t s' := by
  rw [State.StaysDisabled, h]
  exact ⟨hocie, rfl, rfl, rfl, id⟩

theorem State.StaysDisabled.trans {s s' s'' : State} {t : Nat} (h : s.StaysDisabled t s')
    (h' : s'.StaysDisabled t s'') : s.StaysDisabled t s'' := by
  obtain ⟨-, hslot, hocr, hovr, hocf⟩ := h
  obtain ⟨hocie', hslot', hocr', hovr', hocf'⟩ := h'
  exact ⟨hocie', hslot'.trans hslot, hocr'.trans hocr, hovr'.trans hovr, fun hp => hocf' (hocf hp)⟩

/-- One event, of this timer or of another. -/
theorem staysDisabled_of_event {i : Instr} {s s' : State} {t : Nat} (hi : isEvent i = true)
    (hocie : (s.timer t).ocie = false) (h : exec i s = .next s') : s.StaysDisabled t s' := by
  cases i with
  | tick u =>
    obtain ⟨-, rfl⟩ := tick_of_exec h
    by_cases hut : u = t
    · subst hut
      obtain ⟨hovr, hocf⟩ := State.timer_tick_disabled hocie
      exact ⟨(s.timer_tick_keeps Timer.ocie (fun _ _ _ _ => rfl) u u).trans hocie,
        s.timer_tick_keeps Timer.activeSlot (fun _ _ _ _ => rfl) u u,
        s.timer_tick_keeps Timer.ocr (fun _ _ _ _ => rfl) u u, hovr, hocf⟩
    · exact .of_timer_eq hocie (s.timer_tick_ne hut)
  | service u =>
    obtain ⟨-, ⟨-, rfl⟩ | ⟨henabled, hlen, -, -, rfl⟩⟩ := execService_next h
    · exact .of_timer_eq hocie rfl
    · refine .of_timer_eq hocie ?_
      rw [State.timer_service hlen, if_neg]
      rintro rfl
      rw [serviceEnabled_eq_false (.inr (.inl hocie))] at henabled
      cases henabled
  | nop | create | attach | detach | write | writeUs | read | readUs | attached | illegal | hostRead | hostWrite
  | compareMatch | timerInit | timerShutdown => cases hi

/-- Settles O27: by induction on the run. -/
theorem disabledTimerIsNotServed : Obligations.DisabledTimerIsNotServed := by
  intro is s s' t his hocie hrun
  show s.StaysDisabled t s'
  induction is generalizing s with
  | nil =>
    cases hrun
    exact .of_timer_eq hocie rfl
  | cons i is ih =>
    obtain ⟨hi, his⟩ := List.forall_mem_cons.mp his
    cases hexec : exec i s with
    | next s1 =>
      have hfirst := staysDisabled_of_event hi hocie hexec
      simp only [execList, hexec] at hrun
      exact hfirst.trans (ih s1 his hfirst.1 hrun)
    | fault f => simp only [execList, hexec] at hrun; cases hrun
    | refused r => simp only [execList, hexec] at hrun; cases hrun

section ServiceFrame

variable {s : State} {t : Nat} (ht : t < s.tm.length)
include ht

theorem State.service_frame :
    (s.service t).ch = s.ch ∧ (s.service t).channelCount = s.channelCount ∧ (s.service t).mode = s.mode ∧
      (s.service t).gie = s.gie ∧ (s.service t).arg0 = s.arg0 ∧ (s.service t).arg1 = s.arg1 ∧
      (s.service t).arg2 = s.arg2 ∧ (s.service t).result = s.result ∧ (s.service t).cu = s.cu ∧
      (s.service t).cfg = s.cfg ∧ (s.service t).pending = s.pending ∧ (s.service t).readData = s.readData := by
  rw [service_eq ht]
  exact ⟨rfl, rfl, rfl, rfl, rfl, rfl, rfl, rfl, rfl, rfl, rfl, rfl⟩

/-- A service records nothing. -/
theorem State.service_record : (s.service t).status = s.status ∧ (s.service t).finfo = s.finfo := by
  rw [service_eq ht]
  exact ⟨rfl, rfl⟩

theorem State.timer_service_same : (s.service t).timer t = s.servedTimer t := by
  rw [timer_service ht, if_pos rfl]

theorem State.timer_service_ne {u : Nat} (h : u ≠ t) : (s.service t).timer u = s.timer u := by
  rw [timer_service ht, if_neg h.symm]

/-- A pin that no active channel of the timer has keeps its level. -/
theorem State.levelOf_service_of_ne (hslot : (s.timer t).slot < s.cfg.channelsPerTimer) {p : Nat}
    (hp : ∀ k, k < s.cfg.channelsPerTimer → (s.chan (s.channelAt t k)).isActive = true →
      (s.chan (s.channelAt t k)).pin.toNat ≠ p) : (s.service t).levelOf p = s.levelOf p := by
  rw [levelOf_service ht]
  refine servedLevel_of_ne (fun hl => ?_) fun hr => ?_
  · obtain ⟨hk, -, hactive⟩ := (s.lowers_iff t).mp hl
    exact hp _ (by omega) hactive
  · obtain ⟨⟨hk, -⟩, hactive⟩ := (s.raises_iff t).mp hr
    exact hp _ hk hactive

end ServiceFrame

/-- Settles O52: the frames of the two events; a service that is not enabled changes nothing at all. -/
theorem eventsLeaveTheRegistryAlone : Obligations.EventsLeaveTheRegistryAlone := by
  intro s s' t
  refine ⟨?both, fun hservice => ?service, fun htick => ?tick⟩
  case both =>
    rintro (hservice | htick)
    · obtain ⟨-, ⟨-, rfl⟩ | ⟨-, ht, -, -, rfl⟩⟩ := execService_next hservice
      · exact ⟨rfl, rfl, rfl, rfl, rfl, rfl, rfl, rfl, rfl, rfl, rfl, rfl, fun _ _ => rfl, rfl, rfl⟩
      · obtain ⟨h1, h2, h3, h4, h5, h6, h7, h8, h9, h10, h11, h12⟩ := State.service_frame ht
        refine ⟨h1, h2, h3, h4, h5, h6, h7, h8, h9, h10, h11, h12, fun u hu => State.timer_service_ne ht hu, ?_⟩
        rw [State.timer_service_same ht]
        exact ⟨s.servedTimer_ocie t, s.servedTimer_trun t⟩
    · obtain ⟨-, rfl⟩ := tick_of_exec htick
      obtain ⟨h1, h2, h3, h4, h5, h6, h7, h8, h9, h10, h11, h12⟩ := s.tick_frame t
      exact ⟨h1, h2, h3, h4, h5, h6, h7, h8, h9, h10, h11, h12, fun u hu => s.timer_tick_ne hu.symm,
        s.timer_tick_keeps Timer.ocie (fun _ _ _ _ => rfl) t t, s.timer_tick_keeps Timer.trun (fun _ _ _ _ => rfl) t t⟩
  case service =>
    obtain ⟨-, ⟨-, rfl⟩ | ⟨-, ht, -, hslot, rfl⟩⟩ := execService_next hservice
    · exact ⟨rfl, rfl, rfl, fun _ _ => rfl⟩
    · obtain ⟨hstatus, hfinfo⟩ := State.service_record ht
      refine ⟨hstatus, hfinfo, ?_, fun p => State.levelOf_service_of_ne ht hslot⟩
      rw [State.timer_service_same ht, s.servedTimer_ovr t]
  case tick =>
    obtain ⟨-, rfl⟩ := tick_of_exec htick
    exact ⟨s.tick_level t, s.timer_tick_keeps Timer.ocr (fun _ _ _ _ => rfl) t t,
      s.timer_tick_keeps Timer.activeSlot (fun _ _ _ _ => rfl) t t⟩

/-! ### What a service reads (R186, R189) -/

/-- R189: the service of timer t reads that timer, its own channels, the count and the configuration. -/
theorem State.servedTimer_congr {s1 s2 : State} {t : Nat} (hcfg : s1.cfg = s2.cfg)
    (hcount : s1.channelCount = s2.channelCount) (htimer : s1.timer t = s2.timer t)
    (hwidth : ∀ k, k = (s1.timer t).nextSlot → k < s1.cfg.channelsPerTimer →
      (s1.chan (s1.channelAt t k)).pulseTicks = (s2.chan (s2.channelAt t k)).pulseTicks) :
    s1.servedTimer t = s2.servedTimer t := by
  have hexists : s1.slotExists t (s1.timer t).nextSlot ↔ s2.slotExists t (s2.timer t).nextSlot := by
    simp only [slotExists, channelAt, hcfg, hcount, htimer]
  have hnow : s1.servedCount t = s2.servedCount t := by rw [servedCount, servedCount, htimer]
  by_cases h : s1.slotExists t (s1.timer t).nextSlot
  · rw [servedTimer_of_slotExists h, servedTimer_of_slotExists (hexists.mp h), hwidth _ rfl h.1, hnow, htimer]
  · rw [servedTimer, servedTimer, if_neg h, if_neg (mt hexists.mpr h), hnow, htimer, hcfg]

/-- Settles O53: a service is enabled by the timer and GIE, and what it writes is `servedTimer`. -/
theorem timersAreIndependent : Obligations.TimersAreIndependent := by
  intro s1 s2 s1' s2' t hcfg hcount hgie htimer hlen1 hlen2 hchan h1 h2
  have henabled : serviceEnabled (s1.timer t) s1.gie = serviceEnabled (s2.timer t) s2.gie := by rw [htimer, hgie]
  obtain ⟨-, ⟨hoff1, rfl⟩ | ⟨hon1, -, -, -, rfl⟩⟩ := execService_next h1 <;>
    obtain ⟨-, ⟨hoff2, rfl⟩ | ⟨hon2, -, -, -, rfl⟩⟩ := execService_next h2
  · exact ⟨htimer, fun _ _ => rfl⟩
  · rw [henabled, hon2] at hoff1; cases hoff1
  · rw [henabled, hoff2] at hon1; cases hon1
  · refine ⟨?_, fun u hu => State.timer_service_ne hlen1 hu⟩
    rw [State.timer_service_same hlen1, State.timer_service_same hlen2]
    exact State.servedTimer_congr hcfg hcount htimer fun k _ hk => by rw [hchan k hk]

/-- The levels after a service speak of the pins and of which channels are active. -/
theorem State.servedLevel_congr {s1 s2 : State} {t : Nat} (hcfg : s1.cfg = s2.cfg)
    (hcount : s1.channelCount = s2.channelCount) (htimer : s1.timer t = s2.timer t) (hlevel : s1.level = s2.level)
    (hactive : ∀ j, (s1.chan j).isActive = (s2.chan j).isActive) (hpin : ∀ j, (s1.chan j).pin = (s2.chan j).pin) :
    s1.servedLevel t = s2.servedLevel t := by
  have hlowers : s1.lowers t = s2.lowers t := by
    rw [Bool.eq_iff_iff, lowers_iff, lowers_iff]
    simp only [channelAt, hcfg, hcount, htimer, hactive]
  have hraises : s1.raises t = s2.raises t := by
    rw [Bool.eq_iff_iff, raises_iff, raises_iff]
    simp only [slotExists, channelAt, hcfg, hcount, htimer, hactive]
  simp only [servedLevel, loweredLevel, hlowers, hraises, channelAt, hcfg, htimer, hlevel, hpin]

/-- Settles O54: the slot that a service starts is the only one whose width it reads. -/
theorem widthsAreReadAtThePulseStart : Obligations.WidthsAreReadAtThePulseStart := by
  intro s s' t i w hne h
  show exec (.service t) (s.setChan i { s.chan i with pulseTicks := w }) = _
  obtain ⟨ht, ⟨hoff, rfl⟩ | ⟨hon, hlen, hlo, hhi, rfl⟩⟩ := execService_next h
  · exact execService_disabled (s := s'.setChan i _) ht hoff
  · have htimer : (s.setChan i { s.chan i with pulseTicks := w }).servedTimer t = s.servedTimer t := by
      refine State.servedTimer_congr rfl rfl rfl fun k hk _ => ?_
      rw [hk, State.chan_setChan_ne]
      · rfl
      · exact Ne.symm hne
    have hlevel : (s.setChan i { s.chan i with pulseTicks := w }).servedLevel t = s.servedLevel t :=
      State.servedLevel_congr rfl rfl rfl rfl (State.chan_keeps_of_set Channel.isActive rfl)
        (State.chan_keeps_of_set Channel.pin rfl)
    refine (execService_enabled (s := s.setChan i _) ht hon hlo hhi).trans (congrArg _ ?_)
    rw [State.service_eq (s := s.setChan i _) hlen, htimer, hlevel, State.service_eq hlen]
    rfl

end Sys2Proof.Machine
end

section
/-! Runs of a timer between its services (42_scheduler.md R184, R185, R187): when the match comes, that it is recorded as
no overrun, and what the service taken then does. -/

namespace Sys2Proof.Machine

/-! ### The match of a timer set n ticks ahead (R188) -/

/-- The distance of R188 to a compare value n ticks ahead. -/
theorem matchDistance_of_add {n : Nat} (now : Word) (hlo : 1 ≤ n) (hhi : n ≤ 65536) :
    (now + BitVec.ofNat 16 n - now - 1).toNat + 1 = n := by
  have hpred : now + BitVec.ofNat 16 n - now - 1 = BitVec.ofNat 16 (n - 1) := by
    obtain ⟨n, rfl⟩ := Nat.exists_eq_add_of_le' hlo
    rw [BitVec.ofNat_add]
    simp
  rw [hpred, BitVec.toNat_ofNat, Nat.mod_eq_of_lt (show n - 1 < 65536 by omega)]
  omega

section Elapsed

variable {keep : State → State → Prop} {t m : Nat} {s1 sm : State} (h : Elapsed keep t m s1 sm)
include h

/-- No overrun comes before 65536 ticks after the match, so nothing is recorded until then (R172). -/
theorem elapsed_status (hk : ∀ a b, keep a b → a.KeepsTimer t b ∧ b.status = a.status)
    (hrun : (s1.timer t).trun = true) (hocf : (s1.timer t).ocf = false)
    (hm : m ≤ ((s1.timer t).ocr - (s1.timer t).tcnt - 1).toNat + 65536) : sm.status = s1.status := by
  induction h with
  | start => rfl
  | @tick n s1 a b hel htick ih =>
    obtain ⟨-, -, hocr, -, -, htcnt, hpending, -⟩ := elapsed_timer (fun a b hab => (hk a b hab).1) hel hrun hocf
    obtain ⟨-, rfl⟩ := tick_of_exec htick
    rw [← ih hrun hocf (by omega)]
    obtain ⟨-, he⟩ | ⟨-, -, ⟨-, he⟩ | ⟨-, -, he⟩ | ⟨hmatch, hover, -⟩⟩ := a.tick_cases t
    · rw [he]
    · rw [he]; rfl
    · rw [he]; rfl
    · -- a match is pending and the next one comes: 65536 ticks lie between
      obtain ⟨hp, -⟩ := (Timer.overrunDue_iff _).mp hover
      rw [hocr, htcnt] at hmatch
      have hdist := add_succ_eq_iff.mp hmatch
      have hafter := hpending.mp hp
      omega
  | other hel hab ih => exact (hk _ _ hab).2.trans (ih hrun hocf hm)

end Elapsed

/-- Between ticks and kept pulses the channel stays active on its pin at its level, and the count only grows. -/
theorem elapsed_keepsPulse {t i m : Nat} {s1 sm : State} (h : Elapsed (fun a b => a.KeepsPulse t i b) t m s1 sm) :
    s1.channelCount.toNat ≤ sm.channelCount.toNat ∧ (sm.chan i).isActive = (s1.chan i).isActive ∧
      (sm.chan i).pin = (s1.chan i).pin ∧
      sm.levelOf (s1.chan i).pin.toNat = s1.levelOf (s1.chan i).pin.toNat := by
  induction h with
  | start => exact ⟨le_rfl, rfl, rfl, rfl⟩
  | @tick n s1 a b hel htick ih =>
    obtain ⟨-, rfl⟩ := tick_of_exec htick
    obtain ⟨hch, hcount, -⟩ := a.tick_frame t
    have hlevel := a.tick_level t
    rw [State.chan, State.levelOf, hch, hcount, hlevel]
    exact ih
  | other hel hab ih =>
    obtain ⟨-, hcount, hactive, hpin, hlevel⟩ := hab
    obtain ⟨hcount', hactive', hpin', hlevel'⟩ := ih
    rw [hpin'] at hlevel
    exact ⟨hcount'.trans hcount, hactive.trans hactive', hpin.trans hpin', hlevel.trans hlevel'⟩

/-- A run in which the other agents may do less is a run in which they may do more. -/
theorem elapsed_mono {keep keep' : State → State → Prop} (hk : ∀ a b, keep a b → keep' a b) {t m : Nat} {s1 sm : State}
    (h : Elapsed keep t m s1 sm) : Elapsed keep' t m s1 sm := by
  induction h with
  | start => exact .start _
  | tick _ htick ih => exact ih.tick htick
  | other _ hab ih => exact ih.other (hk _ _ hab)

/-! ### The services at the ends of a run -/

theorem State.chan_service {s : State} {t : Nat} (ht : t < s.tm.length) (i : Nat) :
    (s.service t).chan i = s.chan i := by
  obtain ⟨hch, -⟩ := State.service_frame ht
  rw [chan, hch]
  rfl

/-- An enabled service that answered a next state had the effect of R174. -/
theorem eq_service_of_enabled {s s1 : State} {t : Nat} (henabled : serviceEnabled (s.timer t) s.gie = true)
    (h : exec (.service t) s = .next s1) : t < s.tm.length ∧ s1 = s.service t := by
  obtain ⟨-, ⟨hoff, -⟩ | ⟨-, hlen, -, -, hs1⟩⟩ := execService_next h
  · rw [henabled] at hoff; cases hoff
  · exact ⟨hlen, hs1⟩

/-- A service that starts a pulse of at least one tick leaves the match that ends it that many ticks ahead (R178). -/
theorem pulse_distance {s : State} {t P : Nat} (hexists : s.slotExists t (s.timer t).nextSlot)
    (hP : P = (s.chan (s.channelAt t (s.timer t).nextSlot)).pulseTicks.toNat) (hlo : 1 ≤ P) :
    ((s.servedTimer t).ocr - (s.servedTimer t).tcnt - 1).toNat + 1 = P := by
  have hlt : P < 65536 := hP ▸ BitVec.isLt _
  have hticks : (s.chan (s.channelAt t (s.timer t).nextSlot)).pulseTicks = BitVec.ofNat 16 P := by
    rw [hP, BitVec.ofNat_toNat, BitVec.setWidth_eq]
  rw [State.servedTimer_of_slotExists hexists]
  simp only [hticks]
  exact matchDistance_of_add _ hlo hlt.le

/-- It drives its channel's pin high (R178). -/
theorem pulse_starts_high {s : State} {t : Nat} (h : s.Inv) (hlen : t < s.tm.length)
    (hexists : s.slotExists t (s.timer t).nextSlot)
    (hactive : (s.chan (s.channelAt t (s.timer t).nextSlot)).isActive = true) :
    (s.service t).levelOf (s.chan (s.channelAt t (s.timer t).nextSlot)).pin.toNat = true := by
  obtain ⟨hpin, -⟩ := h.activePins _ (hexists.2.trans_le h.count) hactive
  obtain ⟨-, -, -, hlevelLen⟩ := h.sizes
  rw [State.levelOf_service hlen, State.servedLevel_of_slotExists hexists, if_pos hactive, State.getD_set_false,
    if_pos ⟨rfl, by simpa [hlevelLen] using hpin⟩]

/-- The service at slot k ends the pulse of that slot: its pin goes low, unless the next slot drives it (R176, R182). -/
theorem pulse_ends_low {s : State} {t k i : Nat} (hlen : t < s.tm.length) (hslot : (s.timer t).slot = k)
    (hi : i = s.channelAt t k) (hcount : i < s.channelCount.toNat) (hactive : (s.chan i).isActive = true)
    (hnext : s.slotExists t (k + 1) → (s.chan (i + 1)).isActive = true → (s.chan (i + 1)).pin ≠ (s.chan i).pin) :
    (s.service t).levelOf (s.chan i).pin.toNat = false := by
  have hnextSlot : (s.timer t).nextSlot = k + 1 := by rw [Timer.nextSlot, hslot]; omega
  have hstands : s.channelAt t (s.timer t).slot.toNat = i := by rw [hslot, hi]; rfl
  have hfollows : s.channelAt t (k + 1) = i + 1 := by rw [hi]; rfl
  rw [State.levelOf_service hlen, ← Bool.not_eq_true]
  intro hhigh
  obtain ⟨hr, hpin⟩ | hlow := State.servedLevel_high hhigh
  · obtain ⟨hexists, ha⟩ := (s.raises_iff t).mp hr
    rw [hnextSlot] at hexists ha hpin
    rw [hfollows] at ha hpin
    exact hnext hexists ha (BitVec.eq_of_toNat_eq hpin)
  · obtain ⟨-, hended⟩ := State.loweredLevel_high hlow
    rw [hstands] at hended
    refine hended ((s.lowers_iff t).mpr ?_) rfl
    rw [hstands]
    exact ⟨by omega, hcount, hactive⟩

/-! ### The pulse (R184) -/

section Pulse

variable {s : State} {t k i P : Nat} (h : s.Inv) (ht : t < s.cfg.numTimers)
  (henabled : serviceEnabled (s.timer t) s.gie = true) (hk : k = (s.timer t).nextSlot) (hexists : s.slotExists t k)
  (hi : i = s.channelAt t k) (hactive : (s.chan i).isActive = true) (hP : P = (s.chan i).pulseTicks.toNat)
  (hlo : 1 ≤ P)
include h ht henabled

/-- The service leaves an enabled timer running and enabled. -/
theorem served_runs : (s.servedTimer t).trun = true ∧ (s.servedTimer t).ocie = true := by
  obtain ⟨-, hocie, -⟩ := (serviceEnabled_iff _ _).mp henabled
  rw [s.servedTimer_trun, s.servedTimer_ocie]
  exact ⟨h.enabledRuns t ht hocie, hocie⟩

/-- From the match of a run that leaves the timer alone, its service is taken if GIE is set, at the slot where the service
before left the timer. -/
theorem service_of_elapsed {keep : State → State → Prop} (hkeep : ∀ a b, keep a b → a.KeepsTimer t b) {m : Nat}
    {sm : State} (hel : Elapsed keep t m (s.service t) sm) (hocf : (sm.timer t).ocf = true) (hgie : sm.gie = true) :
    exec (.service t) sm = .next (sm.service t) ∧ (sm.timer t).slot = (s.servedTimer t).slot ∧ sm.cfg = s.cfg := by
  obtain ⟨hrun, hocie⟩ := served_runs h ht henabled
  have hlen := lt_tm_length h ht
  have htimer := State.timer_service_same hlen
  obtain ⟨-, -, -, -, -, -, -, -, -, hcfg, -⟩ := State.service_frame hlen
  obtain ⟨hlo, hhi, -⟩ := (inv_service h ht).slots t (hcfg ▸ ht)
  obtain ⟨hcfg', hocie', -, hactiveSlot, -⟩ := elapsed_timer hkeep hel (by rw [htimer, hrun])
    (by rw [htimer, s.servedTimer_ocf])
  have hslot : (sm.timer t).slot = ((s.service t).timer t).slot := congrArg BitVec.toInt hactiveSlot
  have henabled' : serviceEnabled (sm.timer t) sm.gie = true :=
    (serviceEnabled_iff _ _).mpr ⟨hocf, by rw [hocie', htimer, hocie], hgie⟩
  rw [← hcfg', ← hslot] at hhi
  rw [← hslot] at hlo
  rw [← htimer]
  exact ⟨execService_enabled (by rw [hcfg', hcfg]; exact ht) henabled' hlo hhi, hslot, hcfg'.trans hcfg⟩

include hk hexists hi hactive hP hlo

/-- While the timer and the pulse are left alone: the pin is high, no overrun comes for 65536 ticks after the match, and
the match comes at the P-th tick. -/
theorem pulse_elapsed {m : Nat} {sm : State}
    (hel : Elapsed (fun a b => a.KeepsPulse t i b) t m (s.service t) sm) :
    sm.levelOf (s.chan i).pin.toNat = true ∧
      (m < P + 65536 → (sm.timer t).ovr = ((s.service t).timer t).ovr) ∧ ((sm.timer t).ocf = true ↔ P ≤ m) := by
  subst hk hi
  have hlen := lt_tm_length h ht
  obtain ⟨hrun, -⟩ := served_runs h ht henabled
  have htimer := State.timer_service_same hlen
  obtain ⟨-, -, -, -, -, -, hocf, hovr⟩ := elapsed_timer (fun a b hab => hab.1) hel (by rw [htimer, hrun])
    (by rw [htimer, s.servedTimer_ocf])
  rw [htimer, pulse_distance hexists hP hlo] at hocf hovr
  obtain ⟨-, -, -, hlevel⟩ := elapsed_keepsPulse hel
  rw [State.chan_service hlen] at hlevel
  exact ⟨hlevel.trans (pulse_starts_high h hlen hexists hactive), by rw [htimer]; exact hovr, hocf⟩

/-- From the match on, the service is taken if GIE is set, and ends the pulse. -/
theorem pulse_served {m : Nat} {sm : State}
    (hel : Elapsed (fun a b => a.KeepsPulse t i b) t m (s.service t) sm) (hm : P ≤ m) (hgie : sm.gie = true) :
    ∃ s3 : State, exec (.service t) sm = .next s3 ∧
      ((sm.slotExists t (k + 1) → (sm.chan (i + 1)).isActive = true → (sm.chan (i + 1)).pin ≠ (s.chan i).pin) →
        s3.levelOf (s.chan i).pin.toNat = false) := by
  obtain ⟨-, -, hocf⟩ := pulse_elapsed h ht henabled hk hexists hi hactive hP hlo hel
  obtain ⟨hserved, hslot, hcfg⟩ := service_of_elapsed h ht henabled (fun a b hab => hab.1) hel (hocf.mpr hm) hgie
  obtain ⟨hcount, hactive', hpin, -⟩ := elapsed_keepsPulse hel
  obtain ⟨-, hcount', -⟩ := State.service_frame (lt_tm_length h ht)
  rw [hcount'] at hcount
  rw [State.chan_service (lt_tm_length h ht)] at hactive' hpin
  obtain ⟨-, ⟨-, hcps⟩, -⟩ := h.wf
  rw [s.servedTimer_slot t hcps, ← hk, if_pos hexists] at hslot
  have hcreated : i < s.channelCount.toNat := hi ▸ hexists.2
  refine ⟨_, hserved, fun hnext => ?_⟩
  rw [← hpin] at hnext ⊢
  exact pulse_ends_low (State.lt_of_ocf sm (hocf.mpr hm)) hslot (by rw [State.channelAt, hcfg, hi]; rfl)
    (hcreated.trans_le hcount) (hactive'.trans hactive) hnext

end Pulse

/-- Settles O56: the pulse over any run, and over the run of ticks alone, in which nothing is recorded either. -/
theorem pulseLastsWidthPlusLatency : Obligations.PulseLastsWidthPlusLatency := by
  intro s s1 t k i P L h ht henabled hk hexists hi hactive hP hlo hL hserv
  obtain ⟨hlen, rfl⟩ := eq_service_of_enabled henabled hserv
  obtain ⟨hch, hcount, -, hgie, -, -, -, -, -, hcfg, -⟩ := State.service_frame hlen
  obtain ⟨hrun, -⟩ := served_runs h ht henabled
  obtain ⟨-, -, hgieSet⟩ := (serviceEnabled_iff _ _).mp henabled
  have htimer := State.timer_service_same hlen
  have hdist : (((s.service t).timer t).ocr - ((s.service t).timer t).tcnt - 1).toNat + 1 = P := by
    subst hk hi
    rw [htimer, pulse_distance hexists hP hlo]
  refine ⟨fun m hm => ?ticksAlone, ?endingService, fun m sm hel hm => ?anyRun⟩
  case ticksAlone =>
    obtain ⟨sm, hticks, hel, -⟩ := elapsed_ticks (keep := fun a b => a.KeepsPulse t i b ∧ b.status = a.status)
      (t := t) m (by rw [hcfg]; exact ht)
    have hstatus := elapsed_status hel (fun a b hab => ⟨hab.1.1, hab.2⟩) (by rw [htimer, hrun])
      (by rw [htimer, s.servedTimer_ocf]) (by omega)
    obtain ⟨hlevel, -, hocf⟩ := pulse_elapsed h ht henabled hk hexists hi hactive hP hlo
      (elapsed_mono (fun a b hab => hab.1) hel)
    exact ⟨sm, hticks, hlevel, hstatus, hocf⟩
  case endingService =>
    obtain ⟨sm, hticks, hel, hcfg', hgie', -, hch', hcount'⟩ := elapsed_ticks (keep := fun a b => a.KeepsPulse t i b)
      (t := t) (P + L) (by rw [hcfg]; exact ht)
    obtain ⟨s3, hservice, hlow⟩ := pulse_served h ht henabled hk hexists hi hactive hP hlo hel (Nat.le_add_right P L)
      (by rw [hgie', hgie]; exact hgieSet)
    refine ⟨sm, s3, hticks, hservice, fun hnext => hlow ?_⟩
    rw [State.slotExists, State.channelAt, State.chan, hch', hcount', hcfg', hch, hcount, hcfg]
    exact hnext
  case anyRun =>
    obtain ⟨hlevel, hovr, hocf⟩ := pulse_elapsed h ht henabled hk hexists hi hactive hP hlo hel
    exact ⟨hlevel, hovr (by omega), hocf,
      fun hend hgie => pulse_served h ht henabled hk hexists hi hactive hP hlo hel (by omega) hgie⟩

/-! ### The refresh tail (R185) -/

/-- The ticks from count e to the match that starts the next frame. -/
def tailTicks (cfg : Config) (e : Nat) : Nat :=
  if e + cfg.safetyMarginTicks < cfg.refreshInterval * cfg.cycPerUs / cfg.prescale then
    cfg.refreshInterval * cfg.cycPerUs / cfg.prescale - e
  else cfg.safetyMarginTicks

/-- R6: a margin of at least one tick, and a frame that the count can hold. -/
theorem tailTicks_bounds {cfg : Config} (h : cfg.wf) (e : Nat) : 1 ≤ tailTicks cfg e ∧ tailTicks cfg e < 65536 := by
  obtain ⟨-, hprescale⟩ := Config.divisors_pos_of_wf h
  obtain ⟨-, -, -, -, -, -, -, -, ⟨-, hframe⟩, hmargin, -⟩ := h
  rw [ticksPerFrame_eq hprescale] at hframe
  rw [tailTicks]
  split <;> omega

/-- R179's target is that many ticks ahead. -/
theorem refreshTarget_eq_add {cfg : Config} (h : cfg.wf) (now : Word) :
    refreshTarget cfg now = now + BitVec.ofNat 16 (tailTicks cfg now.toNat) := by
  obtain ⟨-, hprescale⟩ := Config.divisors_pos_of_wf h
  have hadd (n : Nat) : BitVec.ofNat 16 (now.toNat + n) = now + BitVec.ofNat 16 n := by
    rw [BitVec.ofNat_add, BitVec.ofNat_toNat, BitVec.setWidth_eq]
  rw [refreshTarget_eq hprescale, ← hadd, tailTicks]
  congr 1
  split_ifs
  · omega
  · rfl

section Tail

variable {s : State} {t : Nat} (h : s.Inv) (ht : t < s.cfg.numTimers)
  (henabled : serviceEnabled (s.timer t) s.gie = true) (hnone : ¬ s.slotExists t (s.timer t).nextSlot)

include hnone in
/-- The service that finds no next slot leaves the timer in the refresh tail, with the match that ends it set (R179). -/
theorem servedTimer_tail :
    (s.servedTimer t).slot = -1 ∧ (s.servedTimer t).ocr = refreshTarget s.cfg (s.servedTimer t).tcnt := by
  rw [State.servedTimer, if_neg hnone]
  exact ⟨Timer.slot_reset, rfl⟩

/-- A service in REFRESH_WAIT restarts the count (R175). -/
theorem servedTimer_tcnt_of_refreshWait (hslot : (s.timer t).slot = -1) : (s.servedTimer t).tcnt = 0 := by
  have htcnt : (s.servedTimer t).tcnt = s.servedCount t := by rw [State.servedTimer]; split <;> rfl
  rw [htcnt, State.servedCount, if_pos (by omega)]

include h ht henabled hnone

/-- While the timer is left alone, the match comes at the tick that ends the tail, and the service taken from then on
restarts the count. -/
theorem tail_elapsed {m : Nat} {sm : State} (hel : Elapsed (fun a b => a.KeepsTimer t b) t m (s.service t) sm) :
    ((sm.timer t).ocf = true ↔ tailTicks s.cfg (s.servedTimer t).tcnt.toNat ≤ m) ∧
      (tailTicks s.cfg (s.servedTimer t).tcnt.toNat ≤ m → sm.gie = true →
        ∃ s3 : State, exec (.service t) sm = .next s3 ∧ (s3.timer t).tcnt = 0) := by
  obtain ⟨hrun, -⟩ := served_runs h ht henabled
  obtain ⟨hslot, hocr⟩ := servedTimer_tail hnone
  obtain ⟨hlo, hhi⟩ := tailTicks_bounds h.wf (s.servedTimer t).tcnt.toNat
  have htimer := State.timer_service_same (lt_tm_length h ht)
  obtain ⟨-, -, -, -, -, -, hocf, -⟩ := elapsed_timer (fun a b hab => hab) hel (by rw [htimer, hrun])
    (by rw [htimer, s.servedTimer_ocf])
  rw [htimer, hocr, refreshTarget_eq_add h.wf, matchDistance_of_add _ hlo hhi.le] at hocf
  refine ⟨hocf, fun hm hgie => ?_⟩
  obtain ⟨hserved, hslot', -⟩ := service_of_elapsed h ht henabled (fun a b hab => hab) hel (hocf.mpr hm) hgie
  refine ⟨_, hserved, ?_⟩
  rw [State.timer_service_same (State.lt_of_ocf sm (hocf.mpr hm))]
  exact servedTimer_tcnt_of_refreshWait (hslot'.trans hslot)

end Tail

/-- Settles O57: the tail over any run, and over the run of ticks alone, which keeps GIE. -/
theorem refreshTailFillsTheFrame : Obligations.RefreshTailFillsTheFrame := by
  rintro s s1 t e frame n h ht henabled hnone hserv rfl rfl rfl
  obtain ⟨hlen, rfl⟩ := eq_service_of_enabled henabled hserv
  obtain ⟨-, -, -, hgie, -, -, -, -, -, hcfg, -⟩ := State.service_frame hlen
  obtain ⟨-, -, hgieSet⟩ := (serviceEnabled_iff _ _).mp henabled
  have hrun (m : Nat) {sm : State} (hel : Elapsed (fun a b => a.KeepsTimer t b) t m (s.service t) sm) :=
    tail_elapsed h ht henabled hnone hel
  rw [State.timer_service_same hlen, ← tailTicks]
  have hticks (m : Nat) := elapsed_ticks (keep := fun a b => a.KeepsTimer t b) (t := t) m (hcfg ▸ ht)
  refine ⟨fun m hm => ?before, ?atMatch, fun m sm hel => hrun m hel⟩
  case before =>
    obtain ⟨sm, hnext, hel, -⟩ := hticks m
    obtain ⟨hocf, -⟩ := hrun m hel
    exact ⟨sm, hnext, Bool.eq_false_iff.mpr (mt hocf.mp hm.not_ge)⟩
  case atMatch =>
    obtain ⟨sm, hnext, hel, -, hgie', -⟩ := hticks (tailTicks s.cfg (s.servedTimer t).tcnt.toNat)
    obtain ⟨hocf, hservice⟩ := hrun _ hel
    obtain ⟨s3, hs3, hcount⟩ := hservice le_rfl (by rw [hgie', hgie]; exact hgieSet)
    exact ⟨sm, s3, hnext, hocf.mpr le_rfl, hs3, hcount⟩

/-! ### Served again (R187) -/

/-- At most 65536 ticks make the match of a running timer pending: none if it is pending already. -/
theorem exists_ticks_match {s : State} {t : Nat} (ht : t < s.cfg.numTimers) (hrun : (s.timer t).trun = true) :
    ∃ (n : Nat) (sm : State), n ≤ 65536 ∧ ticks t n s = .next sm ∧ (sm.timer t).ocf = true ∧ sm.cfg = s.cfg ∧
      sm.gie = s.gie ∧ (sm.timer t).ocie = (s.timer t).ocie ∧ (sm.timer t).slot = (s.timer t).slot := by
  cases hocf : (s.timer t).ocf
  case true => exact ⟨0, s, Nat.zero_le _, rfl, hocf, rfl, rfl, rfl, rfl⟩
  case false =>
    obtain ⟨sm, hticks, hel, -, hgie, -⟩ := elapsed_ticks (keep := fun a b => a.KeepsTimer t b) (t := t)
      (((s.timer t).ocr - (s.timer t).tcnt - 1).toNat + 1) ht
    obtain ⟨hcfg, hocie, -, hslot, -, -, hpending, -⟩ := elapsed_timer (fun a b hab => hab) hel hrun hocf
    exact ⟨_, sm, BitVec.isLt _, hticks, hpending.mpr le_rfl, hcfg, hgie, hocie, congrArg BitVec.toInt hslot⟩

/-- Settles O58: the service that a match enables clears it and keeps OCIE. -/
theorem enabledTimerIsServedAgain : Obligations.EnabledTimerIsServedAgain := by
  intro s t h ht hocie hgie
  obtain ⟨n, sm, hn, hticks, hocf, hcfg, hgie', hocie', hslot⟩ := exists_ticks_match ht (h.enabledRuns t ht hocie)
  obtain ⟨hlo, hhi, -⟩ := h.slots t ht
  have henabled : serviceEnabled (sm.timer t) sm.gie = true :=
    (serviceEnabled_iff _ _).mpr ⟨hocf, by rw [hocie', hocie], by rw [hgie', hgie]⟩
  have htimer := State.timer_service_same (State.lt_of_ocf sm hocf)
  refine ⟨n, sm, sm.service t, hn, hticks, henabled, execService_enabled (by rw [hcfg]; exact ht) henabled
    (by omega) (by rw [hslot, hcfg]; exact hhi), ?_, ?_⟩
  · rw [htimer, sm.servedTimer_ocf]
  · rw [htimer, sm.servedTimer_ocie, hocie', hocie]

end Sys2Proof.Machine
end
